-- ==== Sys2Proof/Word.lean ====
section
/-! DEFINITION. The numbers of the PV4816 and the plainest access to a fixed row of like things. -/

namespace Sys2Proof

/-- One byte of a frame, an argument or an answer. -/
abbrev Byte := BitVec 8

/-- A record's position in the table, 0 to 4095 (R1). -/
abbrev Index := Fin 4096

/-- The count a status entry carries and a handle must match, modulo 65536 (R2). -/
abbrev Generation := BitVec 16

/-- The count of epoch ticks, and a deadline (R97, R99). -/
abbrev Epoch := BitVec 48

/-- A clearance level, 7 highest (R2, R35). -/
abbrev Clearance := Fin 8

/-- A requester port 0 to 7, and its check link (R131). -/
abbrev PortId := Fin 8

/-- A request tag 0 to 15 (R165). -/
abbrev Tag := Fin 16

/-- A hold entry's number 0 to 7 in its port's table (R49). -/
abbrev Token := Fin 8

/-- A bank of the Record Store, 0 to 15 (R141). -/
abbrev BankId := Fin 16

/-- A page of a bank, 0 to 31 (R141). -/
abbrev PageNo := Fin 32

/-- A domain 0 to 15; 15 is the common domain (R121). -/
abbrev DomainId := Fin 16

/-- Item `i` of a row of `n` like things. -/
def pick {α : Type} {n : Nat} (v : Vector α n) (i : Fin n) : α := v[i.val]

/-- The row `v` with item `i` replaced by `x`. -/
def place {α : Type} {n : Nat} (v : Vector α n) (i : Fin n) (x : α) : Vector α n := v.set i.val x

end Sys2Proof
end

