-- ==== Sys2Proof/Syntax.lean ====
section
/-! DEFINITION. The commands of the PV4816: one constructor of `Instr` for each row of the table of
operations and events, with the operands the chapters give it. -/

namespace Sys2Proof

/-! ## What the operands are made of -/

/-- An access right set: READ, WRITE or both (R4). -/
structure Rights where
  read : Bool
  write : Bool
  deriving DecidableEq, Repr, Inhabited

/-- The sharing mode of a DATA record (R4). -/
inductive Sharing where
  | shared
  | sole
  deriving DecidableEq, Repr, Inhabited

/-- The access a check asks for (R24). -/
inductive Access where
  | read
  | write
  deriving DecidableEq, Repr, Inhabited

/-- The kind of a record (R3): DATA or ALIAS. -/
inductive RecKind where
  | dataKind
  | aliasKind
  deriving DecidableEq, Repr, Inhabited

/-- The body fields of a DATA record but its check code (R4). -/
structure DataBody where
  base : BitVec 48
  extent : BitVec 40
  rights : Rights
  sharing : Sharing
  floor : Clearance
  tag : BitVec 16
  deriving DecidableEq, Repr, Inhabited

/-- The body fields of an ALIAS record but its check code (R5). -/
structure AliasBody where
  offset : BitVec 32
  extent : BitVec 40
  rights : Rights
  floor : Clearance
  tag : BitVec 16
  deriving DecidableEq, Repr, Inhabited

/-- A record body (R4, R5). -/
inductive Body where
  | dataBody (d : DataBody)
  | aliasBody (a : AliasBody)
  deriving DecidableEq, Repr, Inhabited

/-- What a body position holds: the fields and the stored check code (R6, R141). -/
structure StoredBody where
  body : Body
  code : BitVec 16
  deriving DecidableEq, Repr, Inhabited

/-- A symbol on a lane of a check link (R163). -/
inductive Symbol where
  | data (b : Byte)
  | start
  | idle
  | violation
  deriving DecidableEq, Repr

/-- Bytes 1 to 13 of a CHECK frame (R189), as they stand in the frame, unused bits included. -/
structure CheckFrame where
  tagByte : Byte
  indexWord : BitVec 16
  generation : BitVec 16
  clearanceByte : Byte
  accessByte : Byte
  offset : BitVec 32
  lengthWord : BitVec 16
  deriving DecidableEq, Repr

/-- Bytes 1 to 13 of a RELEASE frame (R189), the eleven unused bytes included. -/
structure ReleaseFrame where
  tagByte : Byte
  tokenByte : Byte
  unused : BitVec 88
  deriving DecidableEq, Repr

/-! ## The arguments of the management requests (R190), as they stand in the write frame -/

structure ConfigureArgs where
  period : BitVec 16
  alertEnable : Byte
  deriving DecidableEq, Repr

structure BindPortArgs where
  port : Byte
  domain : Byte
  maxClearance : Byte
  holdLimit : BitVec 16
  deriving DecidableEq, Repr

/-- The arguments of UNBIND_PORT and of PORT_RESET. -/
structure PortArgs where
  port : Byte
  deriving DecidableEq, Repr

/-- The arguments of OPEN_DOMAIN and of SET_QUOTA. -/
structure QuotaArgs where
  domain : Byte
  quota : BitVec 16
  deriving DecidableEq, Repr

/-- The argument of CLOSE_DOMAIN. -/
structure DomainArgs where
  domain : Byte
  deriving DecidableEq, Repr

structure EstablishDataArgs where
  domain : Byte
  base : BitVec 48
  extent : BitVec 40
  rights : Byte
  sharing : Byte
  floor : Byte
  tag : BitVec 16
  deadlinePresent : Byte
  deadline : BitVec 48
  deriving DecidableEq, Repr

structure EstablishAliasArgs where
  domain : Byte
  target : BitVec 16
  targetGeneration : BitVec 16
  offset : BitVec 32
  extent : BitVec 40
  rights : Byte
  floor : Byte
  tag : BitVec 16
  deadlinePresent : Byte
  deadline : BitVec 48
  deriving DecidableEq, Repr

structure AmendArgs where
  index : BitVec 16
  generation : BitVec 16
  force : Byte
  mask : Byte
  rights : Byte
  sharing : Byte
  floor : Byte
  extent : BitVec 40
  tag : BitVec 16
  deadline : BitVec 48
  deriving DecidableEq, Repr

/-- The arguments of SUSPEND and of RESUME: the handle the agent names a record by (R2). -/
structure HandleArgs where
  index : BitVec 16
  generation : BitVec 16
  deriving DecidableEq, Repr

structure RevokeArgs where
  index : BitVec 16
  generation : BitVec 16
  flags : Byte
  deriving DecidableEq, Repr

structure QueryArgs where
  index : BitVec 16
  deriving DecidableEq, Repr

/-- A management request with its arguments (R190). -/
inductive Request where
  | info
  | status
  | configure (a : ConfigureArgs)
  | bindPort (a : BindPortArgs)
  | unbindPort (a : PortArgs)
  | portReset (a : PortArgs)
  | openDomain (a : QuotaArgs)
  | setQuota (a : QuotaArgs)
  | closeDomain (a : DomainArgs)
  | establishData (a : EstablishDataArgs)
  | establishAlias (a : EstablishAliasArgs)
  | amend (a : AmendArgs)
  | suspend (a : HandleArgs)
  | resume (a : HandleArgs)
  | revoke (a : RevokeArgs)
  | query (a : QueryArgs)
  | fetchNotice
  | tableReset
  deriving DecidableEq, Repr

/-! ## The commands -/

/-- One command of the block: a row of the table of operations and events.

A command from a link or the management port says what its sender drives on the pins; what it comes to is
the part's own judgement (log entries 10 and 11). An event of the part's own that cannot happen in a state
changes nothing there (log entry 3). -/
inductive Instr where
  /-- RESET_N_ASSERT (R181). -/
  | resetNAssert
  /-- RESET_N_RELEASE (R181). -/
  | resetNRelease
  /-- START_UP_WALK_END (R181). -/
  | startUpWalkEnd
  /-- PROBE (R26): a CHECK frame of kind PROBE arrives on link `p`. -/
  | probe (p : PortId) (f : CheckFrame)
  /-- HOLD (R27): a CHECK frame of kind HOLD arrives on link `p`. -/
  | hold (p : PortId) (f : CheckFrame)
  /-- RELEASE (R57): a RELEASE frame arrives on link `p`. -/
  | release (p : PortId) (f : ReleaseFrame)
  /-- PROTOCOL_FAULT (R167): these symbols arrive on link `p`. -/
  | protocolFault (p : PortId) (symbols : List Symbol)
  /-- TRANSMISSION_START (R169). -/
  | transmissionStart (p : PortId)
  /-- TRANSMISSION_END (R169). -/
  | transmissionEnd (p : PortId)
  /-- WRITE_FRAME_REFUSED (R177): a management frame of these bytes, type byte first. -/
  | writeFrameRefused (bytes : List Byte)
  /-- READ_FRAME (R178): a read frame of the type byte and `n` further byte times. -/
  | readFrame (n : Nat)
  /-- INFO (R182). -/
  | info
  /-- STATUS (R183). -/
  | status
  /-- CONFIGURE (R184). -/
  | configure (a : ConfigureArgs)
  /-- BIND_PORT (R132). -/
  | bindPort (a : BindPortArgs)
  /-- UNBIND_PORT (R133). -/
  | unbindPort (a : PortArgs)
  /-- PORT_RESET (R136). -/
  | portReset (a : PortArgs)
  /-- OPEN_DOMAIN (R124). -/
  | openDomain (a : QuotaArgs)
  /-- SET_QUOTA (R125). -/
  | setQuota (a : QuotaArgs)
  /-- CLOSE_DOMAIN (R126). -/
  | closeDomain (a : DomainArgs)
  /-- ESTABLISH_DATA (R77). -/
  | establishData (a : EstablishDataArgs)
  /-- ESTABLISH_ALIAS (R79). -/
  | establishAlias (a : EstablishAliasArgs)
  /-- AMEND (R82). -/
  | amend (a : AmendArgs)
  /-- SUSPEND (R87). -/
  | suspend (a : HandleArgs)
  /-- RESUME (R87). -/
  | resume (a : HandleArgs)
  /-- REVOKE (R88). -/
  | revoke (a : RevokeArgs)
  /-- QUERY (R94). -/
  | query (a : QueryArgs)
  /-- FETCH_NOTICE (R114). -/
  | fetchNotice
  /-- TABLE_RESET (R185). -/
  | tableReset
  /-- JOB_SERVICE_START (R146). -/
  | jobServiceStart (b : BankId)
  /-- BODY_READ_COMPLETION (R147); `upset` is what the position has decayed to, if it has (log entry 8). -/
  | bodyReadCompletion (b : BankId) (upset : Option StoredBody)
  /-- BODY_WRITE_COMPLETION (R148). -/
  | bodyWriteCompletion (b : BankId)
  /-- AMEND_READ_HALF_END (R149); `upset` as for BODY_READ_COMPLETION. -/
  | amendReadHalfEnd (b : BankId) (upset : Option StoredBody)
  /-- AMEND_JOB_COMPLETION (R149). -/
  | amendJobCompletion (b : BankId)
  /-- ADMISSION_GRANT (R153). -/
  | admissionGrant (b : BankId)
  /-- REFRESH_TICK (R155). -/
  | refreshTick (b : BankId)
  /-- REFRESH_START (R156). -/
  | refreshStart (b : BankId)
  /-- REFRESH_END (R156). -/
  | refreshEnd (b : BankId)
  /-- RETENTION_LOSS (R160). -/
  | retentionLoss (b : BankId)
  /-- EPOCH_TICK (R103). -/
  | epochTick
  /-- RECORD_EXPIRY (R104). -/
  | recordExpiry
  /-- HOLD_TIMER_EXPIRY (R61). -/
  | holdTimerExpiry (p : PortId) (t : Token)
  /-- SWEEP_VISIT (R128). -/
  | sweepVisit
  /-- CLEARING_WALK_VISIT (R186). -/
  | clearingWalkVisit
  /-- PORT_RESET_COMPLETION (R138). -/
  | portResetCompletion (p : PortId)
  /-- DRAINING_COMPLETION (R13). -/
  | drainingCompletion (i : Index)
  deriving DecidableEq, Repr

end Sys2Proof
end

