-- ==== Sys2Proof/Config.lean ====
section
/-! DEFINITION. What is fixed for the part, and the values the data sheet leaves undefined. -/

namespace Sys2Proof.Config

/-! ## Capacities (R182, R151) -/

/-- Places in a bank's job queue. -/
def queuePlaces : Nat := 12

/-- The highest refresh debt (R142). -/
def maxDebt : Nat := 8

/-- The debt at which an urgent run starts (R143). -/
def urgentDebt : Nat := 4

/-- The pin limit of a record (R52). -/
def maxPins : Nat := 15

/-- The capacity of an alias list (R18). -/
def maxAliases : Nat := 15

/-- Tick period after RESET_N, in ms (R108). -/
def defaultPeriod : BitVec 16 := 1000

/-- Vendor code of the INFO answer (R190). -/
def vendorCode : BitVec 16 := 0x3A71

/-- Part code of the INFO answer (R190). -/
def partCode : BitVec 16 := 0x4816

/-- Revision of the INFO answer (R182). -/
def revision : Byte := 1

/-! ## Free values

Body positions are undefined after RESET_N (R21, R161) and in a lost page (R160). Nothing constrains
what they hold: these constants have no body. The first argument is a name that the machine gives each
event that leaves positions undefined, the second the index of the position (log entry 7). -/

/-- The fields of an undefined position, read as those of a DATA record. -/
opaque freeDataBody : Nat → Index → DataBody

/-- The fields of an undefined position, read as those of an ALIAS record. -/
opaque freeAliasBody : Nat → Index → AliasBody

/-- The stored check code of an undefined position. -/
opaque freeCheckCode : Nat → Index → BitVec 16

end Sys2Proof.Config
end

