-- ==== Sys2Proof/Machine/State.lean ====
section
/-! DEFINITION. The state of the PV4816 as plain data: every table, list, counter, buffer and flag the
chapters give the part, the stops, and the state after reset. -/

namespace Sys2Proof.Machine

/-! ## Window records (chapter 1) -/

/-- The six states of a record (R3). -/
inductive RecState where
  | free
  | pending
  | live
  | suspended
  | draining
  | damaged
  deriving DecidableEq, Repr

/-- The notice reasons of a record (R3, R109), a set drawn from four. -/
structure RecordReasons where
  expired : Bool
  drained : Bool
  pinBroken : Bool
  damaged : Bool
  deriving DecidableEq, Repr

/-- One reason that can be raised on a record (R109). -/
inductive RecReason where
  | expired
  | drained
  | pinBroken
  | damaged
  deriving DecidableEq, Repr

/-- A status entry of the Record Status Table (R3). -/
structure StatusEntry where
  state : RecState
  generation : Generation
  domain : Option DomainId
  kind : Option RecKind
  target : Option Index
  aliases : List Index
  pins : Nat
  writer : Option PortId
  deadline : Option Epoch
  reasons : RecordReasons
  noticeGen : Option Generation
  deriving DecidableEq, Repr

/-- The empty reason set of a record. -/
def RecordReasons.empty : RecordReasons := ⟨false, false, false, false⟩

/-- The entry of a FREE record that owes nothing, at generation `g` (R21, R22). -/
def StatusEntry.freeAt (g : Generation) : StatusEntry :=
  { state := .free, generation := g, domain := none, kind := none, target := none, aliases := [],
    pins := 0, writer := none, deadline := none, reasons := .empty, noticeGen := none }

/-- What an unlisted index reads as: the entry after RESET_N (R21). -/
def StatusEntry.blank : StatusEntry := .freeAt 0

/-! ## Domains and ports (chapter 7) -/

inductive DomainState where
  | closed
  | opened
  | closing
  deriving DecidableEq, Repr

/-- A Domain Directory entry (R121). -/
structure DomainEntry where
  state : DomainState
  quota : Nat
  count : Nat
  deriving DecidableEq, Repr

/-- The domain close sweep while it runs (R128). -/
structure Sweep where
  domain : DomainId
  cursor : Index
  deriving DecidableEq, Repr

inductive PortState where
  | unbound
  | active
  | fenced
  | resetting
  deriving DecidableEq, Repr

/-- What BIND_PORT gives a port (R131), present while the port is not UNBOUND. -/
structure Binding where
  domain : DomainId
  maxClearance : Clearance
  holdLimit : BitVec 16
  deriving DecidableEq, Repr

/-- A Port Table entry (R131). -/
structure PortEntry where
  state : PortState
  binding : Option Binding
  deriving DecidableEq, Repr

/-! ## Holds (chapter 3) -/

inductive BreakReason where
  | timeout
  | amended
  | revoked
  | damaged
  | domainClosed
  | tableReset
  deriving DecidableEq, Repr

/-- The fields of a HELD entry (R49, R40). `timer` is the limit its hold timer was started with (R60). -/
structure HeldHold where
  index : Index
  generation : Generation
  resolved : Index
  access : Access
  offset : BitVec 32
  length : BitVec 13
  clearance : Clearance
  timer : BitVec 16
  deriving DecidableEq, Repr

/-- A hold table entry (R49). -/
inductive HoldEntry where
  | empty
  | reserved
  | held (h : HeldHold)
  | broken (reason : BreakReason) (frameWaiting : Bool)
  deriving DecidableEq, Repr

/-! ## Notices (chapter 6) -/

inductive Subject where
  | record (i : Index)
  | port (p : PortId)
  | domain (d : DomainId)
  | bank (b : BankId)
  deriving DecidableEq, Repr

inductive FenceCause where
  | frameCheck
  | duplicateTag
  | unknownKind
  deriving DecidableEq, Repr

/-- The reason set of a PORT subject and its fence cause (R109, R113). -/
structure PortNotice where
  fenced : Bool
  resetDone : Bool
  cause : Option FenceCause
  deriving DecidableEq, Repr

/-! ## Frames on the check links (chapters 2, 9, 11) -/

inductive DenyReason where
  | portUnbound
  | portFenced
  | clearing
  | domainClosed
  | badIndex
  | stale
  | foreign
  | holdFull
  | suspended
  | revoked
  | damaged
  | clearance
  | range
  | rights
  | pinLimit
  | contended
  deriving DecidableEq, Repr

/-- What an ANSWER frame says (R39, R58). A RELEASE answer carries the token its frame named, 0 to 15. -/
inductive Verdict where
  | allow (address : BitVec 48) (windowTag : BitVec 16) (token : Option Token)
  | deny (reason : DenyReason)
  | released (token : BitVec 4)
  | late (token : BitVec 4) (reason : BreakReason)
  | unknownToken (token : BitVec 4)
  deriving DecidableEq, Repr

/-- A frame in an outbound queue (R168). -/
inductive OutFrame where
  | answer (tag : Tag) (verdict : Verdict)
  | broken (token : Token) (reason : BreakReason)
  deriving DecidableEq, Repr

/-- The receiver of a check link (R163), with the bytes of the frame in progress. -/
inductive Receiver where
  | hunting
  | receiving (bytes : List Byte)
  deriving DecidableEq, Repr

/-- The transmitter of a check link (R169), with the sixteen bytes it sends. -/
inductive Transmitter where
  | idle
  | sending (bytes : List Byte)
  deriving DecidableEq, Repr

/-- What a check link's outward lane carries (R163, R172): it is held at rest, or it carries symbols. -/
inductive Lane where
  | rest
  | symbols (l : List Symbol)
  deriving DecidableEq, Repr

/-! ## The tables a claim on the RST can reach -/

/-- The status side of the part: everything that a claim on the RST, the Hold Unit, the Domain Directory,
the Notice List or the expiry queue changes (R7), with the Port Table and the outbound queues that breaks
read and fill (R63). -/
structure Tables where
  /-- The status entries, by index, in canonical form (R3). -/
  rst : List (Nat × StatusEntry)
  freeList : List Index
  domains : Vector DomainEntry 16
  expiryQueue : List (Epoch × Index)
  ports : Vector PortEntry 8
  holds : Vector (Vector HoldEntry 8) 8
  fillOrder : List (PortId × Token)
  notices : List Subject
  portNotices : Vector PortNotice 8
  domainClosed : Vector Bool 16
  bankLoss : Vector Bool 16
  outbound : Vector (List OutFrame) 8
  deriving DecidableEq, Repr

/-! ## The Record Store (chapter 8) -/

/-- What a body position holds: what was last written, or nothing the data sheet defines. `k` names the
event that left it undefined (log entry 7). -/
inductive Cell where
  | stored (b : StoredBody)
  | undefined (k : Nat)
  deriving DecidableEq, Repr

/-- The result a BODY_READ hands to its issuer (R147). -/
structure ReadResult where
  body : Body
  code : BitVec 16
  agreed : Bool
  deriving DecidableEq, Repr

/-- Who issued a job (R145). -/
inductive Issuer where
  | slot (p : PortId) (t : Tag)
  | engine
  deriving DecidableEq, Repr

/-- A change of deadline in an AMEND (R82). -/
inductive DeadlineChange where
  | keep
  | set (e : Epoch)
  | clear
  deriving DecidableEq, Repr

/-- The changes of an AMEND (R82). -/
structure AmendChanges where
  rights : Option Rights
  sharing : Option Sharing
  floor : Option Clearance
  extent : Option (BitVec 40)
  tag : Option (BitVec 16)
  deadline : DeadlineChange
  deriving DecidableEq, Repr

/-- A bank job (R145). -/
inductive Job where
  | bodyRead (index : Index) (generation : Generation) (issuer : Issuer)
  | bodyWrite (index : Index) (generation : Generation) (body : Body)
  | amendJob (index : Index) (generation : Generation) (changes : AmendChanges) (force : Bool)
  deriving DecidableEq, Repr

inductive Controller where
  | idleClosed
  | idleOpen
  | busy
  | refreshing
  deriving DecidableEq, Repr

/-- The page buffer of a bank with a page open: its contents by index, in canonical form (R142, R146). -/
structure OpenPage where
  page : PageNo
  dirty : Bool
  cells : List (Nat × Cell)
  deriving DecidableEq, Repr

/-- The state of a bank controller (R142). -/
structure Bank where
  controller : Controller
  openPage : Option OpenPage
  queue : List Job
  /-- The AMEND job at the head is in its write half (R149). -/
  writeHalf : Bool
  engineWaiting : Option Job
  /-- For each port the tags of its slots that wait here, longest first (R142, R152). -/
  slotsWaiting : Vector (List Tag) 8
  debt : Nat
  pointer : PageNo
  /-- The page under refresh (R156). -/
  underRefresh : Option PageNo
  urgent : Bool
  lastGranted : PortId
  deriving DecidableEq, Repr

/-! ## The Check Engine (chapter 2) -/

inductive CheckKind where
  | probe
  | hold
  deriving DecidableEq, Repr

/-- The request fields of R24, but the tag, which is the slot's. -/
structure CheckRequest where
  kind : CheckKind
  index : Index
  generation : Generation
  claimed : Clearance
  access : Access
  offset : BitVec 32
  length : BitVec 13
  deriving DecidableEq, Repr

/-- A body read a slot issued: for which index and generation, and its result once completed (R25). -/
structure ReadRecord where
  index : Index
  generation : Generation
  result : Option ReadResult
  deriving DecidableEq, Repr

/-- The phases in which a slot waits (R25). FREE is an absent slot; ANSWERED ends in the claim it begins in. -/
inductive SlotPhase where
  | admitting
  | reading
  deriving DecidableEq, Repr

/-- An occupied request slot (R25). -/
structure CheckSlot where
  request : CheckRequest
  clearance : Clearance
  token : Option Token
  kind : RecKind
  target : Option Index
  named : ReadRecord
  targetRead : Option ReadRecord
  phase : SlotPhase
  deriving DecidableEq, Repr

/-! ## The Management Engine and its port (chapters 4, 10) -/

inductive PartState where
  | starting
  | ready
  | clearing
  deriving DecidableEq, Repr

inductive IfaceState where
  | idle
  | working
  | answerReady
  deriving DecidableEq, Repr

/-- Answer statuses (R190). -/
inductive AnswerStatus where
  | done
  | accepted
  | emptyList
  | frameError
  | badArgument
  | stale
  | state
  | foreign
  | referenced
  | aliasLimit
  | conflict
  | tableFull
  | quota
  | domainState
  | sweepBusy
  | portBusy
  | damaged
  | revoked
  deriving DecidableEq, Repr

/-- What the answer buffer holds (R190): status, request kind, content. -/
structure Answer where
  status : AnswerStatus
  kind : Byte
  content : List Byte
  deriving DecidableEq, Repr

/-- The phases of a request in progress (R74); WALKING is the wait of TABLE_RESET on its walk (R179). -/
inductive EnginePhase where
  | checking
  | admitting
  | job
  | walking
  | answered
  deriving DecidableEq, Repr

/-- What a completed engine job came to (R74); of a passing AMEND job, from the end of its read half on (log
entry 33). -/
inductive JobResult where
  | read (r : ReadResult)
  | wrote
  | amended (status : AnswerStatus)
  deriving DecidableEq, Repr

/-- A bank job the engine issued; its bank follows from its index (R74, R145). -/
structure EngineJob where
  job : Job
  result : Option JobResult
  deriving DecidableEq, Repr

/-- The progress record of the Management Engine (R74). -/
structure Progress where
  request : Request
  phase : EnginePhase
  taken : Option (Index × Generation)
  jobs : List EngineJob
  targetExtent : Option (BitVec 40)
  deriving DecidableEq, Repr

/-! ## The whole part -/

/-- The state of the PV4816. -/
structure State where
  /-- RESET_N is asserted (R181). -/
  resetAsserted : Bool
  partState : PartState
  /-- The start-up walk is in progress (R181). -/
  startWalk : Bool
  /-- The index the clearing walk visits next (R185, R186). -/
  clearWalk : Option Index
  tables : Tables
  sweep : Option Sweep
  alertEnable : Bool
  epoch : Epoch
  /-- The tick period last set, in ms (R98). -/
  tickPeriod : BitVec 16
  /-- The length of the tick interval in progress; absent while the tick timer does not run (R98). -/
  tickInterval : Option (BitVec 16)
  /-- The expiry pass of a tick is in progress (R103 step 2; log entry 6). -/
  expiryPass : Bool
  slots : Vector (Vector (Option CheckSlot) 16) 8
  receivers : Vector Receiver 8
  transmitters : Vector Transmitter 8
  /-- The body positions of the store, by index, in canonical form (R141). -/
  storage : List (Nat × Cell)
  /-- The free value an unlisted position reads as (log entry 7). -/
  bodyEra : Nat
  /-- The next unused name of a free value (log entry 7). -/
  freeCount : Nat
  banks : Vector Bank 16
  iface : IfaceState
  refused : Bool
  requestBuffer : Option (List Byte)
  answerBuffer : Option Answer
  engine : Option Progress
  /-- The bytes shifted out on MSDO in the last management frame (log entry 12). -/
  msdo : List Byte
  /-- The commands that wait, first in first out. -/
  pending : List Instr
  deriving DecidableEq, Repr

/-- The faults: none. The data sheet describes no event that stops the part; every wrong input is denied,
refused, discarded or answered, and those are next states. -/
inductive Fault where
  deriving DecidableEq, Repr

/-- The refusals. -/
inductive Refusal where
  /-- Raised by `exec` alone, for a row that has no meaning yet. Safe: nothing is claimed of the row.
  No arm of `exec` raises it. -/
  | notModelled (mnemonic : String)
  deriving DecidableEq, Repr

/-! ## Reset -/

/-- The indices of the free list after start-up: 1 to 4095 in ascending order (R21). -/
def allUsable : List Index := (List.range 4095).map fun n => Fin.ofNat 4096 (n + 1)

/-- The Domain Directory after RESET_N (R139). -/
def resetDomains : Vector DomainEntry 16 :=
  place (Vector.replicate 16 ⟨.closed, 0, 0⟩) 15 ⟨.opened, 4095, 0⟩

/-- The tables after RESET_N (R21, R71, R108, R118, R139, R172). -/
def Tables.reset : Tables where
  rst := []
  freeList := allUsable
  domains := resetDomains
  expiryQueue := []
  ports := Vector.replicate 8 ⟨.unbound, none⟩
  holds := Vector.replicate 8 (Vector.replicate 8 .empty)
  fillOrder := []
  notices := []
  portNotices := Vector.replicate 8 ⟨false, false, none⟩
  domainClosed := Vector.replicate 16 false
  bankLoss := Vector.replicate 16 false
  outbound := Vector.replicate 8 []

/-- A bank after RESET_N (R161). -/
def Bank.reset : Bank where
  controller := .idleClosed
  openPage := none
  queue := []
  writeHalf := false
  engineWaiting := none
  slotsWaiting := Vector.replicate 8 []
  debt := 0
  pointer := 0
  underRefresh := none
  urgent := false
  lastGranted := 7

/-- The part while RESET_N is asserted (R181): every block in its reset state. `k` names the free value
of the body positions, and `q` is the queue of waiting commands. -/
def State.heldInReset (k : Nat) (q : List Instr) : State where
  resetAsserted := true
  partState := .starting
  startWalk := false
  clearWalk := none
  tables := .reset
  sweep := none
  alertEnable := false
  epoch := 0
  tickPeriod := Config.defaultPeriod
  tickInterval := none
  expiryPass := false
  slots := Vector.replicate 8 (Vector.replicate 16 none)
  receivers := Vector.replicate 8 .hunting
  transmitters := Vector.replicate 8 .idle
  storage := []
  bodyEra := k
  freeCount := k + 1
  banks := Vector.replicate 16 .reset
  iface := .idle
  refused := false
  requestBuffer := none
  answerBuffer := none
  engine := none
  msdo := []
  pending := q

/-- The part right after reset: RESET_N released and the start-up walk begun (R181). -/
def State.reset : State :=
  { State.heldInReset 0 [] with resetAsserted := false, startWalk := true }

end Sys2Proof.Machine
end

