-- ==== Sys2Proof/Machine/Flags.lean ====
section
/-! DEFINITION. The codes of states, statuses, verdicts and reasons, and the reason sets as flag bits
(R189, R190, R191). -/

namespace Sys2Proof.Machine

/-- Deny reason codes (R189). -/
def DenyReason.code : DenyReason → Byte
  | .portUnbound => 0x01
  | .portFenced => 0x02
  | .clearing => 0x03
  | .domainClosed => 0x04
  | .badIndex => 0x05
  | .stale => 0x06
  | .foreign => 0x07
  | .holdFull => 0x08
  | .suspended => 0x09
  | .revoked => 0x0A
  | .damaged => 0x0B
  | .clearance => 0x0C
  | .range => 0x0D
  | .rights => 0x0E
  | .pinLimit => 0x0F
  | .contended => 0x10

/-- Break reason codes, in BROKEN frames and LATE answers (R189). -/
def BreakReason.code : BreakReason → Byte
  | .timeout => 0x20
  | .amended => 0x21
  | .revoked => 0x22
  | .damaged => 0x23
  | .domainClosed => 0x24
  | .tableReset => 0x25

/-- Verdict codes (R189). -/
def Verdict.code : Verdict → Byte
  | .allow _ _ _ => 1
  | .deny _ => 2
  | .released _ => 3
  | .late _ _ => 4
  | .unknownToken _ => 5

/-- Answer status codes (R190). -/
def AnswerStatus.code : AnswerStatus → Byte
  | .done => 0x00
  | .accepted => 0x01
  | .emptyList => 0x02
  | .frameError => 0x03
  | .badArgument => 0x10
  | .stale => 0x11
  | .state => 0x12
  | .foreign => 0x13
  | .referenced => 0x14
  | .aliasLimit => 0x15
  | .conflict => 0x16
  | .tableFull => 0x17
  | .quota => 0x18
  | .domainState => 0x19
  | .sweepBusy => 0x1A
  | .portBusy => 0x1B
  | .damaged => 0x1C
  | .revoked => 0x1D

/-- Record state codes (R191). -/
def RecState.code : RecState → Byte
  | .free => 0
  | .pending => 1
  | .live => 2
  | .suspended => 3
  | .draining => 4
  | .damaged => 5

/-- Port state codes (R190). -/
def PortState.code : PortState → Byte
  | .unbound => 0
  | .active => 1
  | .fenced => 2
  | .resetting => 3

/-- Domain state codes (R190). -/
def DomainState.code : DomainState → Byte
  | .closed => 0
  | .opened => 1
  | .closing => 2

/-- Fence cause codes (R191); 0 is absent. -/
def causeCode : Option FenceCause → Byte
  | none => 0
  | some .frameCheck => 1
  | some .duplicateTag => 2
  | some .unknownKind => 3

/-- Kind codes (R191); FFh is absent. -/
def kindCode : Option RecKind → Byte
  | none => 0xFF
  | some .dataKind => 0
  | some .aliasKind => 1

end Sys2Proof.Machine
namespace Sys2Proof
open Machine

/-- Sharing codes (R190). -/
def Sharing.code : Sharing → Byte
  | .shared => 0
  | .sole => 1

end Sys2Proof
namespace Sys2Proof.Machine

/-- One flag bit. -/
def bit (x : Bool) (n : Nat) : Byte := if x then BitVec.ofNat 8 (2 ^ n) else 0

end Sys2Proof.Machine
namespace Sys2Proof
open Machine

/-- Rights: bit 0 READ, bit 1 WRITE (R190). -/
def Rights.code (r : Rights) : Byte := bit r.read 0 ||| bit r.write 1

end Sys2Proof
namespace Sys2Proof.Machine

/-- Rights of a code: bits 0 and 1. -/
def rightsOf (b : Byte) : Rights := ⟨b.getLsbD 0, b.getLsbD 1⟩

/-- Record reasons: bit 0 EXPIRED, 1 DRAINED, 2 PIN_BROKEN, 3 DAMAGED (R191). -/
def RecordReasons.code (r : RecordReasons) : Byte :=
  bit r.expired 0 ||| bit r.drained 1 ||| bit r.pinBroken 2 ||| bit r.damaged 3

/-- Port reasons: bit 0 FENCED, 1 RESET_DONE (R191). -/
def PortNotice.code (n : PortNotice) : Byte := bit n.fenced 0 ||| bit n.resetDone 1

/-- No reason is in the set. -/
def RecordReasons.isEmpty (r : RecordReasons) : Bool :=
  !r.expired && !r.drained && !r.pinBroken && !r.damaged

/-- The set with one reason added; no change if it is there (R111). -/
def RecordReasons.add (r : RecordReasons) : RecReason → RecordReasons
  | .expired => { r with expired := true }
  | .drained => { r with drained := true }
  | .pinBroken => { r with pinBroken := true }
  | .damaged => { r with damaged := true }

/-- No reason is pending on the port. -/
def PortNotice.isEmpty (n : PortNotice) : Bool := !n.fenced && !n.resetDone

/-- Request kind codes (R190). -/
def requestKind : Request → Byte
  | .info => 0x01
  | .status => 0x02
  | .configure _ => 0x03
  | .bindPort _ => 0x04
  | .unbindPort _ => 0x05
  | .portReset _ => 0x06
  | .openDomain _ => 0x07
  | .setQuota _ => 0x08
  | .closeDomain _ => 0x09
  | .establishData _ => 0x0A
  | .establishAlias _ => 0x0B
  | .amend _ => 0x0C
  | .suspend _ => 0x0D
  | .resume _ => 0x0E
  | .revoke _ => 0x0F
  | .query _ => 0x10
  | .fetchNotice => 0x11
  | .tableReset => 0x12

end Sys2Proof.Machine
end

