-- ==== Sys2Proof/Machine/Bytes.lean ====
section
/-! DEFINITION. Bytes of words, most significant first (chapter 11), and the CRC-16 (R187). -/

namespace Sys2Proof.Machine

/-- The two bytes of a 16-bit field. -/
def bytes2 (x : BitVec 16) : List Byte := [x.extractLsb' 8 8, x.extractLsb' 0 8]

/-- The four bytes of a 32-bit field. -/
def bytes4 (x : BitVec 32) : List Byte :=
  [x.extractLsb' 24 8, x.extractLsb' 16 8, x.extractLsb' 8 8, x.extractLsb' 0 8]

/-- The five bytes of an extent field. -/
def bytes5 (x : BitVec 40) : List Byte :=
  [x.extractLsb' 32 8, x.extractLsb' 24 8, x.extractLsb' 16 8, x.extractLsb' 8 8, x.extractLsb' 0 8]

/-- The six bytes of an address, epoch or deadline field. -/
def bytes6 (x : BitVec 48) : List Byte :=
  [x.extractLsb' 40 8, x.extractLsb' 32 8, x.extractLsb' 24 8, x.extractLsb' 16 8,
   x.extractLsb' 8 8, x.extractLsb' 0 8]

/-- The eleven unused bytes of a RELEASE frame. -/
def bytes11 (x : BitVec 88) : List Byte :=
  [x.extractLsb' 80 8, x.extractLsb' 72 8, x.extractLsb' 64 8, x.extractLsb' 56 8,
   x.extractLsb' 48 8, x.extractLsb' 40 8, x.extractLsb' 32 8, x.extractLsb' 24 8,
   x.extractLsb' 16 8, x.extractLsb' 8 8, x.extractLsb' 0 8]

/-- A number in two bytes. -/
def bytesNat2 (n : Nat) : List Byte := bytes2 (BitVec.ofNat 16 n)

/-- A number in one byte. -/
def byteNat (n : Nat) : Byte := BitVec.ofNat 8 n

/-- Byte `n` of a list, 0 beyond its end. -/
def byteAt (l : List Byte) (n : Nat) : Byte := l.getD n 0

/-- The 16-bit field at byte `n`. -/
def wordAt (l : List Byte) (n : Nat) : BitVec 16 := byteAt l n ++ byteAt l (n + 1)

/-- The 32-bit field at byte `n`. -/
def wordAt4 (l : List Byte) (n : Nat) : BitVec 32 :=
  byteAt l n ++ byteAt l (n + 1) ++ byteAt l (n + 2) ++ byteAt l (n + 3)

/-- The 40-bit field at byte `n`. -/
def wordAt5 (l : List Byte) (n : Nat) : BitVec 40 :=
  byteAt l n ++ byteAt l (n + 1) ++ byteAt l (n + 2) ++ byteAt l (n + 3) ++ byteAt l (n + 4)

/-- The 48-bit field at byte `n`. -/
def wordAt6 (l : List Byte) (n : Nat) : BitVec 48 :=
  byteAt l n ++ byteAt l (n + 1) ++ byteAt l (n + 2) ++ byteAt l (n + 3) ++ byteAt l (n + 4) ++
    byteAt l (n + 5)

/-- The 88 unused bits of a RELEASE frame, at byte `n`. -/
def wordAt11 (l : List Byte) (n : Nat) : BitVec 88 :=
  wordAt6 l n ++ wordAt5 l (n + 6)

/-! ## The CRC-16 (R187): polynomial 1021h, register from FFFFh, no reflection, no final XOR -/

/-- One bit of the CRC register's advance: shift left, and subtract the polynomial on a carry. -/
def crcBit (r : BitVec 16) : BitVec 16 :=
  if r.msb then (r <<< 1) ^^^ 0x1021 else r <<< 1

/-- The register after one byte, most significant bit first. -/
def crcByte (r : BitVec 16) (b : Byte) : BitVec 16 :=
  let r0 := r ^^^ (b ++ (0 : BitVec 8))
  crcBit (crcBit (crcBit (crcBit (crcBit (crcBit (crcBit (crcBit r0)))))))

/-- The CRC-16 of a byte string (R187). -/
def crc16 (l : List Byte) : BitVec 16 := l.foldl crcByte 0xFFFF

end Sys2Proof.Machine
end

