-- ==== Sys2Proof/Machine/Operands.lean ====
section
/-! DEFINITION. Every operand form: the layouts of check-link frames and of management requests, and how
their fields are read (R188 to R191). -/

namespace Sys2Proof.Machine

/-! ## Check-link frames (R189) -/

/-- Kind codes of CHECK frames (R189). -/
def CheckKind.code : CheckKind → Byte
  | .probe => 1
  | .hold => 2

/-- Sixteen bytes: fourteen and their CRC-16 (R187, R189). -/
def withCrc (l : List Byte) : List Byte := l ++ bytes2 (crc16 l)

end Sys2Proof.Machine
namespace Sys2Proof
open Machine

/-- The sixteen bytes of a CHECK frame. -/
def CheckFrame.bytes (k : CheckKind) (f : CheckFrame) : List Byte :=
  withCrc ([k.code, f.tagByte] ++ bytes2 f.indexWord ++ bytes2 f.generation ++
    [f.clearanceByte, f.accessByte] ++ bytes4 f.offset ++ bytes2 f.lengthWord)

/-- The sixteen bytes of a RELEASE frame. -/
def ReleaseFrame.bytes (f : ReleaseFrame) : List Byte :=
  withCrc ([3, f.tagByte, f.tokenByte] ++ bytes11 f.unused)

/-- The tag of a CHECK frame: bits 3 to 0 of byte 1 (R189). -/
def CheckFrame.tag (f : CheckFrame) : Tag := Fin.ofNat 16 f.tagByte.toNat

/-- The index of a CHECK frame: bits 11 to 0 of bytes 2 and 3. -/
def CheckFrame.index (f : CheckFrame) : Index := Fin.ofNat 4096 f.indexWord.toNat

/-- The claimed clearance of a CHECK frame: bits 2 to 0 of byte 6. -/
def CheckFrame.clearance (f : CheckFrame) : Clearance := Fin.ofNat 8 f.clearanceByte.toNat

/-- The length of a CHECK frame: bits 12 to 0 of bytes 12 and 13. -/
def CheckFrame.length (f : CheckFrame) : BitVec 13 := f.lengthWord.extractLsb' 0 13

/-- The tag of a RELEASE frame. -/
def ReleaseFrame.tag (f : ReleaseFrame) : Tag := Fin.ofNat 16 f.tagByte.toNat

/-- The token of a RELEASE frame: bits 3 to 0 of byte 2. -/
def ReleaseFrame.token (f : ReleaseFrame) : BitVec 4 := f.tokenByte.extractLsb' 0 4

end Sys2Proof
namespace Sys2Proof.Machine

/-- A frame on the lane: START and its bytes as data symbols (R163). -/
def frameSymbols (bytes : List Byte) : List Symbol := .start :: bytes.map .data

/-- The tag of a frame: bits 3 to 0 of byte 1; the other bits are unused (R188). -/
def frameTag (l : List Byte) : Tag := Fin.ofNat 16 (byteAt l 1).toNat

/-- The token of a RELEASE frame: bits 3 to 0 of byte 2. -/
def frameToken (l : List Byte) : BitVec 4 := (byteAt l 2).extractLsb' 0 4

/-- The access of a CHECK frame: bits 1 to 0 of byte 7; 0 and 3 are undefined (R188). -/
def accessOf (b : Byte) : Option Access :=
  if b.extractLsb' 0 2 = 1 then some .read
  else if b.extractLsb' 0 2 = 2 then some .write
  else none

/-- The kind of a CHECK frame, absent for every other kind. -/
def checkKindOf (b : Byte) : Option CheckKind :=
  if b = 1 then some .probe else if b = 2 then some .hold else none

/-- The request of a CHECK frame of kind `k` and access `a` (R24). -/
def checkRequest (k : CheckKind) (a : Access) (l : List Byte) : CheckRequest where
  kind := k
  index := Fin.ofNat 4096 (wordAt l 2).toNat
  generation := wordAt l 4
  claimed := Fin.ofNat 8 (byteAt l 6).toNat
  access := a
  offset := wordAt4 l 8
  length := (wordAt l 12).extractLsb' 0 13

/-- The reason byte of an ANSWER; 00h is absent (R189). -/
def Verdict.reasonByte : Verdict → Byte
  | .deny r => r.code
  | .late _ r => r.code
  | .allow _ _ _ | .released _ | .unknownToken _ => 0

/-- The address of an ANSWER; 0 is absent. -/
def Verdict.address : Verdict → BitVec 48
  | .allow a _ _ => a
  | .deny _ | .released _ | .late _ _ | .unknownToken _ => 0

/-- The window tag of an ANSWER; 0 is absent. -/
def Verdict.windowTag : Verdict → BitVec 16
  | .allow _ w _ => w
  | .deny _ | .released _ | .late _ _ | .unknownToken _ => 0

/-- The token byte of an ANSWER; FFh is absent. -/
def Verdict.tokenByte : Verdict → Byte
  | .allow _ _ (some t) => byteNat t.val
  | .allow _ _ none => 0xFF
  | .deny _ => 0xFF
  | .released t => byteNat t.toNat
  | .late t _ => byteNat t.toNat
  | .unknownToken t => byteNat t.toNat

/-- The sixteen bytes of an outward frame, its CRC-16 computed (R169, R189). -/
def OutFrame.bytes : OutFrame → List Byte
  | .answer tag v =>
    withCrc ([4, byteNat tag.val, v.code, v.reasonByte] ++ bytes6 v.address ++
      [v.tokenByte, 0] ++ bytes2 v.windowTag)
  | .broken token reason =>
    withCrc ([5, 0, byteNat token.val, reason.code] ++ List.replicate 10 0)

/-! ## Management requests (R190) -/

/-- The argument bytes of a request, in order (R190). -/
def requestArgs : Request → List Byte
  | .info | .status | .fetchNotice | .tableReset => []
  | .configure a => bytes2 a.period ++ [a.alertEnable]
  | .bindPort a => [a.port, a.domain, a.maxClearance] ++ bytes2 a.holdLimit
  | .unbindPort a | .portReset a => [a.port]
  | .openDomain a | .setQuota a => a.domain :: bytes2 a.quota
  | .closeDomain a => [a.domain]
  | .establishData a =>
    a.domain :: (bytes6 a.base ++ bytes5 a.extent ++ [a.rights, a.sharing, a.floor] ++
      bytes2 a.tag ++ a.deadlinePresent :: bytes6 a.deadline)
  | .establishAlias a =>
    a.domain :: (bytes2 a.target ++ bytes2 a.targetGeneration ++ bytes4 a.offset ++
      bytes5 a.extent ++ [a.rights, a.floor] ++ bytes2 a.tag ++
      a.deadlinePresent :: bytes6 a.deadline)
  | .amend a =>
    bytes2 a.index ++ bytes2 a.generation ++ [a.force, a.mask, a.rights, a.sharing, a.floor] ++
      bytes5 a.extent ++ bytes2 a.tag ++ bytes6 a.deadline
  | .suspend a | .resume a => bytes2 a.index ++ bytes2 a.generation
  | .revoke a => bytes2 a.index ++ bytes2 a.generation ++ [a.flags]
  | .query a => bytes2 a.index

/-- The argument length of each of the eighteen kinds, absent for a kind that is not defined (R190). -/
def argLength (kind : Byte) : Option Nat :=
  match kind.toNat with
  | 0x01 => some 0
  | 0x02 => some 0
  | 0x03 => some 3
  | 0x04 => some 5
  | 0x05 => some 1
  | 0x06 => some 1
  | 0x07 => some 3
  | 0x08 => some 3
  | 0x09 => some 1
  | 0x0A => some 24
  | 0x0B => some 25
  | 0x0C => some 22
  | 0x0D => some 4
  | 0x0E => some 4
  | 0x0F => some 5
  | 0x10 => some 2
  | 0x11 => some 0
  | 0x12 => some 0
  | _ => none

/-- The request of a kind and its argument bytes (R190), absent for a kind that is not defined. -/
def requestOf (kind : Byte) (l : List Byte) : Option Request :=
  match kind.toNat with
  | 0x01 => some .info
  | 0x02 => some .status
  | 0x03 => some (.configure ⟨wordAt l 0, byteAt l 2⟩)
  | 0x04 => some (.bindPort ⟨byteAt l 0, byteAt l 1, byteAt l 2, wordAt l 3⟩)
  | 0x05 => some (.unbindPort ⟨byteAt l 0⟩)
  | 0x06 => some (.portReset ⟨byteAt l 0⟩)
  | 0x07 => some (.openDomain ⟨byteAt l 0, wordAt l 1⟩)
  | 0x08 => some (.setQuota ⟨byteAt l 0, wordAt l 1⟩)
  | 0x09 => some (.closeDomain ⟨byteAt l 0⟩)
  | 0x0A => some (.establishData ⟨byteAt l 0, wordAt6 l 1, wordAt5 l 7, byteAt l 12, byteAt l 13,
      byteAt l 14, wordAt l 15, byteAt l 17, wordAt6 l 18⟩)
  | 0x0B => some (.establishAlias ⟨byteAt l 0, wordAt l 1, wordAt l 3, wordAt4 l 5, wordAt5 l 9,
      byteAt l 14, byteAt l 15, wordAt l 16, byteAt l 18, wordAt6 l 19⟩)
  | 0x0C => some (.amend ⟨wordAt l 0, wordAt l 2, byteAt l 4, byteAt l 5, byteAt l 6, byteAt l 7,
      byteAt l 8, wordAt5 l 9, wordAt l 14, wordAt6 l 16⟩)
  | 0x0D => some (.suspend ⟨wordAt l 0, wordAt l 2⟩)
  | 0x0E => some (.resume ⟨wordAt l 0, wordAt l 2⟩)
  | 0x0F => some (.revoke ⟨wordAt l 0, wordAt l 2, byteAt l 4⟩)
  | 0x10 => some (.query ⟨wordAt l 0⟩)
  | 0x11 => some .fetchNotice
  | 0x12 => some .tableReset
  | _ => none

/-- The type byte of a write frame (R190). -/
def writeType : Byte := 0xA5

/-- The type byte of a read frame (R190). -/
def readType : Byte := 0x5A

/-- Kind, length and arguments of a request: what its CRC-16 covers (R187). -/
def requestBody (r : Request) : List Byte :=
  requestKind r :: byteNat (requestArgs r).length :: requestArgs r

/-- The write frame of a request (R177, R190). -/
def requestFrame (r : Request) : List Byte := writeType :: withCrc (requestBody r)

/-- An answer as a read frame shifts it out (R178, R190). -/
def Answer.bytes (a : Answer) : List Byte :=
  withCrc ([a.status.code, a.kind] ++ bytesNat2 a.content.length ++ a.content)

/-! ## Encoding tests of arguments (R188) -/

/-- A domain number 0 to 15. -/
def domainOf (b : Byte) : Option DomainId :=
  if h : b.toNat < 16 then some ⟨b.toNat, h⟩ else none

/-- A port number 0 to 7. -/
def portOf (b : Byte) : Option PortId :=
  if h : b.toNat < 8 then some ⟨b.toNat, h⟩ else none

/-- An index 0 to 4095. -/
def indexOf (w : BitVec 16) : Option Index :=
  if h : w.toNat < 4096 then some ⟨w.toNat, h⟩ else none

/-- A clearance or floor 0 to 7. -/
def clearanceOf (b : Byte) : Option Clearance :=
  if h : b.toNat < 8 then some ⟨b.toNat, h⟩ else none

/-- A flag byte, 0 or 1. -/
def flagOf (b : Byte) : Option Bool :=
  if b = 0 then some false else if b = 1 then some true else none

/-- A rights value 1 to 3. -/
def rightsArg (b : Byte) : Option Rights :=
  if b = 0 ∨ 3 < b.toNat then none else some (rightsOf b)

/-- A sharing value 0 or 1. -/
def sharingArg (b : Byte) : Option Sharing :=
  if b = 0 then some .shared else if b = 1 then some .sole else none

/-- A deadline argument: a present byte and a value that is 0 when the present byte is 0. The outer
option is the encoding test. -/
def deadlineArg (present : Byte) (value : BitVec 48) : Option (Option Epoch) :=
  if present = 1 then some (some value)
  else if present = 0 ∧ value = 0 then some none
  else none

/-- The two flags of a REVOKE, cascade and break (R190). -/
def revokeFlags (b : Byte) : Option (Bool × Bool) :=
  if b.toNat ≤ 3 then some (b.getLsbD 0, b.getLsbD 1) else none

/-! ## Ranges of body fields (R4, R5) -/

/-- A multiple of 64 from 64 to 2^32. -/
def extentInRange (e : BitVec 40) : Bool :=
  decide (e.toNat % 64 = 0 ∧ 64 ≤ e.toNat ∧ e.toNat ≤ 2 ^ 32)

end Sys2Proof.Machine
namespace Sys2Proof
open Machine

/-- The range tests of R4 on a DATA body. -/
def DataBody.inRange (d : DataBody) : Bool :=
  decide (d.base.toNat % 64 = 0) && extentInRange d.extent &&
    decide (d.base.toNat + d.extent.toNat ≤ 2 ^ 48) && (d.rights.read || d.rights.write)

/-- The range tests of R5 on an ALIAS body, each field alone (R79). -/
def AliasBody.inRange (a : AliasBody) : Bool :=
  decide (a.offset.toNat % 64 = 0) && extentInRange a.extent && (a.rights.read || a.rights.write)

end Sys2Proof
namespace Sys2Proof.Machine

/-! ## Fields of a body, and its bytes (R191) -/

end Sys2Proof.Machine
namespace Sys2Proof
open Machine

def Body.extent : Body → BitVec 40
  | .dataBody d => d.extent
  | .aliasBody a => a.extent

def Body.rights : Body → Rights
  | .dataBody d => d.rights
  | .aliasBody a => a.rights

def Body.floor : Body → Clearance
  | .dataBody d => d.floor
  | .aliasBody a => a.floor

def Body.tag : Body → BitVec 16
  | .dataBody d => d.tag
  | .aliasBody a => a.tag

/-- The sharing of a body; an alias body has none, and counts as SHARED. -/
def Body.sharing : Body → Sharing
  | .dataBody d => d.sharing
  | .aliasBody _ => .shared

/-- Where the body's range begins: the base of a DATA body, the offset of an ALIAS body. -/
def Body.start : Body → Nat
  | .dataBody d => d.base.toNat
  | .aliasBody a => a.offset.toNat

/-- The body section of the QUERY answer, but for its check code (R6, R191). -/
def Body.bytes : Body → List Byte
  | .dataBody d =>
    bytes6 d.base ++ bytes5 d.extent ++ [d.rights.code, d.sharing.code, byteNat d.floor.val] ++
      bytes2 d.tag
  | .aliasBody a =>
    bytes4 a.offset ++ bytes5 a.extent ++ [a.rights.code, byteNat a.floor.val] ++ bytes2 a.tag

/-- The check code of a body (R6). -/
def Body.checkCode (b : Body) : BitVec 16 := crc16 b.bytes

/-- The body with its newly computed check code, as a BODY_WRITE or an AMEND job writes it (R6). -/
def Body.sealed (b : Body) : StoredBody := ⟨b, b.checkCode⟩

/-- An access is in a rights set (R37). -/
def Rights.has (r : Rights) : Access → Bool
  | .read => r.read
  | .write => r.write

/-- The intersection of two rights sets (R37). -/
def Rights.inter (r s : Rights) : Rights := ⟨r.read && s.read, r.write && s.write⟩

/-- `r` is a subset of `s` (R5). -/
def Rights.subset (r s : Rights) : Bool := (!r.read || s.read) && (!r.write || s.write)

end Sys2Proof
namespace Sys2Proof.Machine

/-! ## Where a body is stored (R141) -/

/-- The bank of an index: i mod 16. -/
def bankOf (i : Index) : BankId := Fin.ofNat 16 i.val

/-- The page of an index: (i div 16) mod 32. -/
def pageOf (i : Index) : PageNo := Fin.ofNat 32 (i.val / 16)

/-- The index stored in a slot of a page of a bank: 512 s + 16 p + b. -/
def indexAt (b : BankId) (p : PageNo) (slot : Nat) : Index :=
  Fin.ofNat 4096 (512 * slot + 16 * p.val + b.val)

/-- The eight indices of a page, in ascending slot order. -/
def pageIndices (b : BankId) (p : PageNo) : List Index := (List.range 8).map (indexAt b p)

end Sys2Proof.Machine
end

