-- ==== Sys2Proof/Machine/Table.lean ====
section
/-! DEFINITION. Sparse tables: a list of key and value pairs in one canonical form, keys strictly rising
and no value equal to what an unlisted key reads as. The Record Status Table and the body positions are
held so. -/

namespace Sys2Proof.Machine.Table

variable {α : Type} [DecidableEq α]

/-- The canonical form, with every key above `low`. `d` is what an unlisted key reads as. -/
def wfAbove (d : α) : Option Nat → List (Nat × α) → Bool
  | _, [] => true
  | low, (k, v) :: r => (low.all fun l => decide (l < k)) && decide (v ≠ d) && wfAbove d (some k) r

/-- The canonical form of a table. -/
def wf (d : α) (t : List (Nat × α)) : Bool := wfAbove d none t

omit [DecidableEq α] in
/-- What key `n` reads as. -/
def get (d : α) : List (Nat × α) → Nat → α
  | [], _ => d
  | (k, v) :: r, n => if n < k then d else if n = k then v else get d r n

omit [DecidableEq α] in
/-- The rest of a table beyond key `n`. A table in canonical form that begins beyond `n` is left as it is. -/
def beyond (n : Nat) : List (Nat × α) → List (Nat × α)
  | [] => []
  | (k, v) :: r => if n < k then (k, v) :: r else beyond n r

/-- The table with key `n` reading as `x`: writing `d` removes the entry. -/
def put (d : α) : List (Nat × α) → Nat → α → List (Nat × α)
  | [], n, x => if x = d then [] else [(n, x)]
  | (k, v) :: r, n, x =>
    if n < k then
      if x = d then (k, v) :: r else (n, x) :: (k, v) :: r
    else if n = k then
      if x = d then beyond n r else (n, x) :: r
    else (k, v) :: put d r n x

end Sys2Proof.Machine.Table
end

