-- ==== Sys2Proof/Machine/Ops.lean ====
section
/-! DEFINITION. The named operations over the tables: reading and writing a status entry, raising a
notice, the free list and the expiry queue, a record becoming FREE, ending a hold, retiring and damaging
a record. Every claim on the RST (R7) is made of these. -/

namespace Sys2Proof.Machine

/-! ## Enumerations -/

/-- The eight ports, ascending. -/
def allPorts : List PortId := [0, 1, 2, 3, 4, 5, 6, 7]

/-- The eight tokens, ascending. -/
def allTokens : List Token := [0, 1, 2, 3, 4, 5, 6, 7]

/-- The sixteen tags, ascending. -/
def allTags : List Tag := [0, 1, 2, 3, 4, 5, 6, 7, 8, 9, 10, 11, 12, 13, 14, 15]

/-- The sixteen banks, ascending. -/
def allBanks : List BankId := [0, 1, 2, 3, 4, 5, 6, 7, 8, 9, 10, 11, 12, 13, 14, 15]

/-- The fifteen domains that open and close, ascending (R121). -/
def ordinaryDomains : List DomainId := [0, 1, 2, 3, 4, 5, 6, 7, 8, 9, 10, 11, 12, 13, 14]

/-- The common domain (R121). -/
def commonDomain : DomainId := 15

/-- Every hold entry, in ascending order of port and, within a port, of token (R63, R111). -/
def allEntries : List (PortId × Token) := allPorts.flatMap fun p => allTokens.map fun t => (p, t)

namespace Tables

/-! ## Status entries (R1, R3) -/

/-- The status entry of an index. Index 0 is the null index: FREE at generation 0 at all times (R1). -/
def entry (T : Tables) (i : Index) : StatusEntry :=
  if i.val = 0 then .blank else Table.get .blank T.rst i.val

/-- The tables with one status entry written; a write at index 0 is discarded (R1). -/
def setEntry (T : Tables) (i : Index) (e : StatusEntry) : Tables :=
  if i.val = 0 then T else { T with rst := Table.put .blank T.rst i.val e }

/-- The tables with one status entry changed. -/
def modEntry (T : Tables) (i : Index) (f : StatusEntry → StatusEntry) : Tables :=
  T.setEntry i (f (T.entry i))

/-! ## The Domain Directory's counts and the Port Table -/

def domain (T : Tables) (d : DomainId) : DomainEntry := pick T.domains d

def setDomain (T : Tables) (d : DomainId) (e : DomainEntry) : Tables :=
  { T with domains := place T.domains d e }

def port (T : Tables) (p : PortId) : PortEntry := pick T.ports p

def setPort (T : Tables) (p : PortId) (e : PortEntry) : Tables :=
  { T with ports := place T.ports p e }

/-- The domain a port is bound to, while it is bound (R131). -/
def portDomain (T : Tables) (p : PortId) : Option DomainId :=
  (T.port p).binding.map Binding.domain

/-- A record is taken into a domain: its count rises (R122). -/
def countUp (T : Tables) (d : DomainId) : Tables :=
  T.setDomain d { T.domain d with count := (T.domain d).count + 1 }

/-- A record of a domain becomes FREE: its count falls (R122). -/
def countDown (T : Tables) (d : DomainId) : Tables :=
  T.setDomain d { T.domain d with count := (T.domain d).count - 1 }

/-- The count falls for the domain of a record, where it has one. -/
def countDownOf (T : Tables) (d : Option DomainId) : Tables :=
  match d with
  | some d => T.countDown d
  | none => T

/-! ## Outbound queues (R168, R170) -/

def queueOf (T : Tables) (p : PortId) : List OutFrame := pick T.outbound p

def setQueue (T : Tables) (p : PortId) (q : List OutFrame) : Tables :=
  { T with outbound := place T.outbound p q }

/-- A frame is placed at the tail of a port's outbound queue (R168). -/
def placeFrame (T : Tables) (p : PortId) (f : OutFrame) : Tables :=
  T.setQueue p (T.queueOf p ++ [f])

/-- The frame is a BROKEN frame of this token. -/
def brokenFrameOf (t : Token) : OutFrame → Bool
  | .broken t' _ => t' == t
  | .answer _ _ => false

/-- The waiting BROKEN frame of a token is withdrawn; the frames behind it close up (R59, R170). -/
def withdraw (T : Tables) (p : PortId) (t : Token) : Tables :=
  T.setQueue p ((T.queueOf p).filter fun f => !brokenFrameOf t f)

/-- The frame is an ANSWER. -/
def isAnswer : OutFrame → Bool
  | .answer _ _ => true
  | .broken _ _ => false

/-- Frames with the BROKEN ones in ascending order of token, behind any ANSWER. -/
def inTokenOrder (l : List OutFrame) : List OutFrame :=
  l.filter isAnswer ++ allTokens.flatMap fun t => l.filter (brokenFrameOf t)

/-- A queue whose first `n` frames stay and whose others are put in token order. -/
def orderBehind (n : Nat) (q : List OutFrame) : List OutFrame := q.take n ++ inTokenOrder (q.drop n)

/-- The frames that a claim taken at `T0` has placed stand in each port's queue in ascending order of token
(R63, R168). A claim that retires or damages several records breaks their holds record by record, as R66,
R89 and R160 give, and so can place two frames of one port out of that order: the model keeps the records'
order for what each break does and the tokens' order for the frames (log entry 28). -/
def orderFrames (T0 T : Tables) : Tables :=
  { T with
    outbound := allPorts.foldl (fun v p => place v p (orderBehind (T0.queueOf p).length (pick v p)))
      T.outbound }

/-! ## Raising a reason (R111, R112, R113) -/

/-- A reason is raised on a record. On a FREE record nothing is raised (R112). -/
def raiseRecord (T : Tables) (i : Index) (r : RecReason) : Tables :=
  let e := T.entry i
  if e.state = .free then T
  else if e.reasons.isEmpty then
    { T.setEntry i { e with reasons := e.reasons.add r, noticeGen := some e.generation } with
      notices := T.notices ++ [.record i] }
  else T.setEntry i { e with reasons := e.reasons.add r }

def portNotice (T : Tables) (p : PortId) : PortNotice := pick T.portNotices p

/-- The reason set of a port is replaced; a port whose set was empty joins the list. -/
def setPortNotice (T : Tables) (p : PortId) (n : PortNotice) : Tables :=
  { T with
    portNotices := place T.portNotices p n
    notices := if (T.portNotice p).isEmpty then T.notices ++ [.port p] else T.notices }

/-- FENCED is raised on a port with its cause; a pending FENCED keeps its cause (R113). -/
def raiseFenced (T : Tables) (p : PortId) (c : FenceCause) : Tables :=
  let n := T.portNotice p
  T.setPortNotice p { n with fenced := true, cause := if n.fenced then n.cause else some c }

/-- RESET_DONE is raised on a port (R138). -/
def raiseResetDone (T : Tables) (p : PortId) : Tables :=
  T.setPortNotice p { T.portNotice p with resetDone := true }

/-- CLOSED is raised on a domain (R129). -/
def raiseClosed (T : Tables) (d : DomainId) : Tables :=
  { T with
    domainClosed := place T.domainClosed d true
    notices := if pick T.domainClosed d then T.notices else T.notices ++ [.domain d] }

/-- RETENTION_LOSS is raised on a bank (R160). -/
def raiseLoss (T : Tables) (b : BankId) : Tables :=
  { T with
    bankLoss := place T.bankLoss b true
    notices := if pick T.bankLoss b then T.notices else T.notices ++ [.bank b] }

/-! ## The expiry queue (R99 to R101) -/

/-- Inserted behind every entry with an equal or earlier deadline, ahead of every later one (R100). -/
def insertDue (d : Epoch) (i : Index) : List (Epoch × Index) → List (Epoch × Index)
  | [] => [(d, i)]
  | (d', j) :: r => if d' ≤ d then (d', j) :: insertDue d i r else (d, i) :: (d', j) :: r

/-- A record leaves the expiry queue and its deadline becomes absent (R101). -/
def leaveQueue (T : Tables) (i : Index) : Tables :=
  { T with expiryQueue := T.expiryQueue.filter fun x => x.2 != i }.modEntry i
    fun e => { e with deadline := none }

/-- A record takes a deadline: an earlier entry is removed and the new one inserted (R83, R100). -/
def enterQueue (T : Tables) (i : Index) (d : Epoch) : Tables :=
  let T' := T.leaveQueue i
  { T' with expiryQueue := insertDue d i T'.expiryQueue }.modEntry i
    fun e => { e with deadline := some d }

/-- A deadline change of an AMEND (R83). -/
def applyDeadline (T : Tables) (i : Index) : DeadlineChange → Tables
  | .keep => T
  | .set d => T.enterQueue i d
  | .clear => T.leaveQueue i

/-! ## Becoming FREE (R13, R15, R17)

`skip` is the record of a damage claim in progress, whose completion is tested at the end of the claim,
after DAMAGED has been raised on it (R14, R111; log entry 14). Elsewhere it is absent. -/

/-- Steps 1, 2, 3 and 5 of R15: FREE at the next generation, uncounted, every field absent. The notice
reasons stay. -/
def makeFree (T : Tables) (i : Index) : Tables :=
  let e := T.entry i
  (T.countDownOf e.domain).setEntry i
    { StatusEntry.freeAt (e.generation + 1) with reasons := e.reasons, noticeGen := e.noticeGen }

/-- Step 7 of R15: the index joins the free-list tail, or is parked while a reason is owed. -/
def joinOrPark (T : Tables) (i : Index) : Tables :=
  if (T.entry i).reasons.isEmpty then { T with freeList := T.freeList ++ [i] } else T

/-- A DRAINING record with pins 0 and an empty alias list completes (R13). -/
def completes (e : StatusEntry) : Bool :=
  decide (e.state = .draining) && decide (e.pins = 0) && e.aliases.isEmpty

/-- An alias leaves its target's alias list, wherever it stands in it (R15 step 4). -/
def leaveTarget (T : Tables) (i t : Index) : Tables :=
  T.modEntry t fun e => { e with aliases := e.aliases.erase i }

/-- A target is tested in the claim that frees one of its aliases, and completes: DRAINED, then FREE
(R13, R15 step 4). A DATA record has no target of its own. -/
def testTarget (skip : Option Index) (T : Tables) (t : Index) : Tables :=
  if skip ≠ some t ∧ completes (T.entry t) = true then
    ((T.raiseRecord t .drained).makeFree t).joinOrPark t
  else T

/-- A record becomes FREE (R15). -/
def becomeFree (skip : Option Index) (T : Tables) (i : Index) : Tables :=
  let T1 := T.makeFree i
  let T2 := match (T.entry i).target with
    | some t => testTarget skip (T1.leaveTarget i t) t
    | none => T1
  T2.joinOrPark i

/-- A DRAINING record is tested for completion; it completes with DRAINED raised first (R13). -/
def testDraining (skip : Option Index) (T : Tables) (i : Index) : Tables :=
  if skip ≠ some i ∧ completes (T.entry i) = true then
    becomeFree skip (T.raiseRecord i .drained) i
  else T

/-! ## Holds (R49 to R55, R63) -/

def hold (T : Tables) (p : PortId) (t : Token) : HoldEntry := pick (pick T.holds p) t

def setHold (T : Tables) (p : PortId) (t : Token) (h : HoldEntry) : Tables :=
  { T with holds := place T.holds p (place (pick T.holds p) t h) }

/-- A hold rests on a record: it names it, or reaches it as the resolved DATA record (R49). -/
def restsOn (i : Index) (h : HeldHold) : Bool := h.index == i || h.resolved == i

/-- The HELD entries that satisfy a test, in ascending order of port and token. -/
def heldWhere (T : Tables) (f : PortId → Token → HeldHold → Bool) : List (PortId × Token) :=
  allEntries.filter fun x => match T.hold x.1 x.2 with
    | .held h => f x.1 x.2 h
    | .empty | .reserved | .broken _ _ => false

/-- One pin of a record more (R52). -/
def pinUp (T : Tables) (i : Index) : Tables := T.modEntry i fun e => { e with pins := e.pins + 1 }

/-- One pin of a record less (R52). -/
def pinDown (T : Tables) (i : Index) : Tables := T.modEntry i fun e => { e with pins := e.pins - 1 }

/-- The writer of a record is set or cleared (R53). -/
def setWriter (T : Tables) (i : Index) (w : Option PortId) : Tables :=
  T.modEntry i fun e => { e with writer := w }

/-- A pin less on the named record and, where it differs, on the resolved DATA record (R55 step 3). -/
def dropPins (T : Tables) (h : HeldHold) : Tables :=
  let T1 := T.pinDown h.index
  if h.resolved = h.index then T1 else T1.pinDown h.resolved

/-- Steps 1 to 5 of R55: the entry leaves the fill order and HELD, its pins fall and the writer it stood
for becomes absent. The timer goes with the entry. -/
def unpin (T : Tables) (p : PortId) (t : Token) (h : HeldHold) (next : HoldEntry) : Tables :=
  let T1 := { T with fillOrder := T.fillOrder.erase (p, t) }.dropPins h
  let T2 := if h.access = .write then T1.setWriter h.resolved none else T1
  T2.setHold p t next

/-- Steps 6 and 7 of R55: the named record is tested, then the resolved DATA record where it differs. -/
def testRecords (skip : Option Index) (T : Tables) (h : HeldHold) : Tables :=
  let T1 := testDraining skip T h.index
  if h.resolved = h.index then T1 else testDraining skip T1 h.resolved

/-- The breaks that raise PIN_BROKEN on the record the hold names (R64). -/
def raisesPinBroken : BreakReason → Bool
  | .timeout | .amended | .damaged => true
  | .revoked | .domainClosed | .tableReset => false

/-- A BROKEN frame is placed only while the port is ACTIVE or FENCED (R63). -/
def sendsBroken : PortState → Bool
  | .active | .fenced => true
  | .unbound | .resetting => false

/-- The notice of a break (R64): PIN_BROKEN on the named record, but not on the damaged one. -/
def raiseBreak (reason : BreakReason) (damaged : Option Index) (T : Tables) (i : Index) : Tables :=
  if raisesPinBroken reason = true ∧ damaged ≠ some i then T.raiseRecord i .pinBroken else T

/-- A HELD entry is broken (R63). PIN_BROKEN is raised before the records are tested, so that it stands
before a DRAINED of the same claim (R61, R111; log entry 13). `damaged` is the record of a damage claim.
An entry that is not HELD is passed over (R50). -/
def breakHold (reason : BreakReason) (damaged : Option Index) (T : Tables) (x : PortId × Token) :
    Tables :=
  match T.hold x.1 x.2 with
  | .held h =>
    let sends := sendsBroken (T.port x.1).state
    let T1 := T.unpin x.1 x.2 h (.broken reason sends)
    let T2 := if sends then T1.placeFrame x.1 (.broken x.2 reason) else T1
    testRecords damaged (raiseBreak reason damaged T2 h.index) h
  | .empty | .reserved | .broken _ _ => T

/-- Several entries are broken in one claim, in the order given (R63). -/
def breakAll (reason : BreakReason) (damaged : Option Index) (T : Tables)
    (xs : List (PortId × Token)) : Tables :=
  xs.foldl (breakHold reason damaged) T

/-! ## Retirement (R12, R66, R89, R90) -/

/-- The states retirement applies to (R12). -/
def retirable : RecState → Bool
  | .live | .suspended | .damaged => true
  | .free | .pending | .draining => false

/-- A record is retired, its cascade done: with break its holds are broken; it leaves the expiry queue;
it becomes FREE or DRAINING (R90). -/
def retireSelf (brk : Bool) (T : Tables) (i : Index) : Tables :=
  let T1 := if brk then T.breakAll .revoked none (T.heldWhere fun _ _ h => restsOn i h) else T
  let T2 := T1.leaveQueue i
  let e := T2.entry i
  if e.pins = 0 ∧ e.aliases = [] then becomeFree none T2 i
  else T2.modEntry i fun e => { e with state := .draining }

/-- One visit of a cascade: the alias is retired, or passed over when DRAINING or PENDING (R89). -/
def cascadeVisit (brk : Bool) (T : Tables) (a : Index) : Tables :=
  if retirable (T.entry a).state then retireSelf brk T a else T

/-- The cascade over the alias list as it stands when the claim begins, oldest first (R89). With break, each
alias's holds are broken at its visit (R66); `retire` then puts the claim's BROKEN frames in token order (log
entry 28). -/
def cascade (brk : Bool) (T : Tables) (i : Index) : Tables :=
  (T.entry i).aliases.foldl (cascadeVisit brk) T

/-- A retirement, with or without cascade and break (R12). The holds are broken alias by alias and then on the
record itself (R66); the BROKEN frames of the claim stand in token order (R63, R168; log entry 28). -/
def retire (casc brk : Bool) (T : Tables) (i : Index) : Tables :=
  let T1 := retireSelf brk (if casc then cascade brk T i else T) i
  if brk then orderFrames T T1 else T1

/-- The expiry of a record: EXPIRED, then retirement with cascade and without break (R104). -/
def expire (T : Tables) (i : Index) : Tables := retire true false (T.raiseRecord i .expired) i

/-! ## Damage (R14) -/

/-- A damage claim on a record, carrying a generation (R14, R67). -/
def damageClaim (T : Tables) (i : Index) (g : Generation) : Tables :=
  if (T.entry i).generation ≠ g then T
  else
    let broken := T.breakAll .damaged (some i) (T.heldWhere fun _ _ h => restsOn i h)
    match (T.entry i).state with
    | .free | .pending | .damaged => T
    | .live | .suspended =>
      ((broken.leaveQueue i).raiseRecord i .damaged).modEntry i
        fun e => { e with state := .damaged }
    | .draining => testDraining none (broken.raiseRecord i .damaged) i

/-! ## Taking the free-list head (R8) -/

/-- The head `i` leaves the free list and becomes PENDING with a domain, a kind and a target; an alias
joins the tail of its target's list; the domain's count rises (R8). -/
def takeHead (T : Tables) (i : Index) (rest : List Index) (d : DomainId) (k : RecKind)
    (target : Option Index) : Tables :=
  let T1 := { T with freeList := rest }.modEntry i fun e =>
    { e with state := .pending, domain := some d, kind := some k, target := target,
             pins := 0, writer := none, deadline := none }
  let T2 := match target with
    | some t => T1.modEntry t fun e => { e with aliases := e.aliases ++ [i] }
    | none => T1
  T2.countUp d

/-! ## Port reset completion (R72, R138) -/

/-- One entry of a port's table at the completion of its reset (R72). A RESERVED entry, which no run
leaves there, is emptied with the rest (log entry 23). -/
def resetEntry (p : PortId) (T : Tables) (t : Token) : Tables :=
  match T.hold p t with
  | .held h => testRecords none (T.unpin p t h .empty) h
  | .broken _ _ => (T.withdraw p t).setHold p t .empty
  | .reserved => T.setHold p t .empty
  | .empty => T

/-- The completion of a PORT_RESET (R138): the hold table is emptied, the port becomes ACTIVE, and
RESET_DONE is raised. R72 and R138 give no order among the entries; the model goes through them in ascending
order of token, which is the order in which DRAINED subjects join the Notice List (log entry 30). -/
def completeReset (T : Tables) (p : PortId) : Tables :=
  let T1 := allTokens.foldl (resetEntry p) T
  (T1.setPort p { T1.port p with state := .active }).raiseResetDone p

/-! ## What is counted (R183) -/

/-- An index is parked: FREE with a reason still owed (R17). -/
def isParked (e : StatusEntry) : Bool := decide (e.state = .free) && !e.reasons.isEmpty

/-- The parked count of STATUS (R183). -/
def parkedCount (T : Tables) : Nat := (T.rst.filter fun x => isParked x.2).length

end Tables

end Sys2Proof.Machine
end

