-- ==== Sys2Proof/Machine/Store.lean ====
section
/-! DEFINITION. The Record Store (chapter 8): body positions and page buffers, job queues and admission,
the choice point, refresh and retention loss. -/

namespace Sys2Proof.Machine

namespace State

/-! ## Access to the rows of the state -/

def bank (s : State) (b : BankId) : Bank := pick s.banks b

def setBank (s : State) (b : BankId) (k : Bank) : State := { s with banks := place s.banks b k }

def slot (s : State) (p : PortId) (t : Tag) : Option CheckSlot := pick (pick s.slots p) t

def setSlot (s : State) (p : PortId) (t : Tag) (x : Option CheckSlot) : State :=
  { s with slots := place s.slots p (place (pick s.slots p) t x) }

/-- A claim on the tables. -/
def onTables (s : State) (f : Tables → Tables) : State := { s with tables := f s.tables }

/-! ## Body positions (R141) -/

/-- What an unlisted body position reads as: undefined, under the name its state gives (R161). -/
def blankCell (s : State) : Cell := .undefined s.bodyEra

/-- The contents of a body position: the page buffer's while its page is open, else the storage's (R146). -/
def cellAt (s : State) (i : Index) : Cell :=
  match (s.bank (bankOf i)).openPage with
  | some op =>
    if op.page = pageOf i then Table.get s.blankCell op.cells i.val
    else Table.get s.blankCell s.storage i.val
  | none => Table.get s.blankCell s.storage i.val

/-- A cell as a stored body. An undefined cell holds free values in the layout of the record's kind
(log entry 7). -/
def storedOf (kind : RecKind) (i : Index) : Cell → StoredBody
  | .stored b => b
  | .undefined k =>
    match kind with
    | .dataKind => ⟨.dataBody (Config.freeDataBody k i), Config.freeCheckCode k i⟩
    | .aliasKind => ⟨.aliasBody (Config.freeAliasBody k i), Config.freeCheckCode k i⟩

/-- The kind a position is read as: that of the status entry, DATA where no record stands there. -/
def kindAt (s : State) (i : Index) : RecKind := ((s.tables.entry i).kind).getD .dataKind

/-- A body read: the fields, the stored code, and whether the code computed afresh agrees (R6, R147). -/
def readBody (s : State) (i : Index) : ReadResult :=
  let b := storedOf (s.kindAt i) i (s.cellAt i)
  ⟨b.body, b.code, decide (b.body.checkCode = b.code)⟩

/-- A cell is written in the storage itself. -/
def writeStorage (s : State) (i : Index) (c : Cell) : State :=
  { s with storage := Table.put s.blankCell s.storage i.val c }

/-- A cell is written into the page buffer, which becomes dirty; with the page not open, which no
completion meets, into the storage (R148, log entry 23). -/
def writeCell (s : State) (i : Index) (c : Cell) : State :=
  match (s.bank (bankOf i)).openPage with
  | some op =>
    if op.page = pageOf i then
      s.setBank (bankOf i) { s.bank (bankOf i) with
        openPage := some { op with dirty := true, cells := Table.put s.blankCell op.cells i.val c } }
    else s.writeStorage i c
  | none => s.writeStorage i c

/-- The kind a body's layout belongs to. -/
def bodyKind : Body → RecKind
  | .dataBody _ => .dataKind
  | .aliasBody _ => .aliasKind

/-- The stored body has decayed to another before a read: in the storage, and in the page buffer that
holds a copy of it (log entry 8). The dirty flag is not touched. A position decays within the layout of
the record that stands there. -/
def decay (s : State) (i : Index) : Option StoredBody → State
  | none => s
  | some b =>
    if bodyKind b.body ≠ s.kindAt i then s else
    let s1 := s.writeStorage i (.stored b)
    match (s1.bank (bankOf i)).openPage with
    | some op =>
      if op.page = pageOf i then
        s1.setBank (bankOf i) { s1.bank (bankOf i) with
          openPage := some { op with cells := Table.put s1.blankCell op.cells i.val (.stored b) } }
      else s1
    | none => s1

/-! ## The page buffer (R146) -/

/-- The page is opened: its eight positions are copied into the page buffer, not dirty. -/
def openedPage (s : State) (b : BankId) (p : PageNo) : OpenPage where
  page := p
  dirty := false
  cells := (pageIndices b p).foldl
    (fun t i => Table.put s.blankCell t i.val (Table.get s.blankCell s.storage i.val)) []

/-- The positions of a dirty page are written back to storage (R146). -/
def writeBack (s : State) (b : BankId) (op : OpenPage) : State :=
  let put := fun t (i : Index) => Table.put s.blankCell t i.val (Table.get s.blankCell op.cells i.val)
  { s with storage := (pageIndices b op.page).foldl put s.storage }

/-- The open page, if any, is written back if dirty, and closed. -/
def closePage (s : State) (b : BankId) : State :=
  match (s.bank b).openPage with
  | none => s
  | some op =>
    let s1 := if op.dirty then s.writeBack b op else s
    s1.setBank b { s1.bank b with openPage := none }

/-- The page of a job is put into the page buffer (R146). -/
def bringPage (s : State) (b : BankId) (p : PageNo) : State :=
  if ((s.bank b).openPage.map OpenPage.page) = some p then s
  else
    let s1 := s.closePage b
    s1.setBank b { s1.bank b with openPage := some (s1.openedPage b p) }

/-! ## Jobs -/

end State

/-- The index a job names (R145). -/
def Job.index : Job → Index
  | .bodyRead i _ _ => i
  | .bodyWrite i _ _ => i
  | .amendJob i _ _ _ => i

/-- The generation a job carries (R145). -/
def Job.generation : Job → Generation
  | .bodyRead _ g _ => g
  | .bodyWrite _ g _ => g
  | .amendJob _ g _ _ => g

namespace State

/-- Service of the head job begins: its page is brought in and the bank becomes BUSY (R146). -/
def beginService (s : State) (b : BankId) : State :=
  match (s.bank b).queue with
  | [] => s
  | job :: _ =>
    let s1 := s.bringPage b (pageOf job.index)
    s1.setBank b { s1.bank b with controller := .busy, writeHalf := false }

/-- A refresh begins: the page buffer is emptied, the page at the pointer goes under refresh, the debt
falls and the pointer advances (R156). -/
def beginRefresh (s : State) (b : BankId) : State :=
  let s1 := s.closePage b
  let k := s1.bank b
  s1.setBank b { k with underRefresh := some k.pointer, debt := k.debt - 1, pointer := k.pointer + 1,
                        controller := .refreshing }

/-- The state of a bank that finds no work (R143). -/
def restState (k : Bank) : Controller := if k.openPage.isSome then .idleOpen else .idleClosed

/-- The work a choice point selects. -/
inductive Choice where
  | refresh
  | urgentRun
  | serve
  | rest
  deriving DecidableEq, Repr

/-- The selection at a choice point (R143): the first that applies of a refresh of the urgent run in
progress, the start of an urgent run, the head job, an opportunistic refresh, rest. -/
def choiceOf (k : Bank) : Choice :=
  if k.urgent = true ∧ 0 < k.debt then .refresh
  else if Config.urgentDebt ≤ k.debt then .urgentRun
  else if k.queue ≠ [] then .serve
  else if 0 < k.debt then .refresh
  else .rest

/-- The choice point of a bank (R143). -/
def choicePoint (s : State) (b : BankId) : State :=
  let k := s.bank b
  match choiceOf k with
  | .refresh => s.beginRefresh b
  | .urgentRun => (s.setBank b { k with urgent := true }).beginRefresh b
  | .serve => s.beginService b
  | .rest => s.setBank b { k with controller := restState k }

/-- A bank with no work in progress (R143). -/
def isIdle : Controller → Bool
  | .idleClosed | .idleOpen => true
  | .busy | .refreshing => false

/-- A job joins the tail of a bank's queue; at an idle bank that is a choice point (R143, R151). -/
def joinQueue (s : State) (job : Job) : State :=
  let b := bankOf job.index
  let k := s.bank b
  let s1 := s.setBank b { k with queue := k.queue ++ [job] }
  if isIdle k.controller then s1.choicePoint b else s1

/-- The queue of the job's bank has a free place (R151). -/
def hasPlace (s : State) (job : Job) : Bool :=
  decide ((s.bank (bankOf job.index)).queue.length < Config.queuePlaces)

/-! ## Asking for a place (R152) -/

def setSlotPhase (s : State) (p : PortId) (t : Tag) (f : SlotPhase) : State :=
  match s.slot p t with
  | some x => s.setSlot p t (some { x with phase := f })
  | none => s

def setEnginePhase (s : State) (f : EnginePhase) : State :=
  { s with engine := s.engine.map fun (e : Progress) => { e with phase := f } }

/-- A check slot asks for a place for its job (R29, R31, R152). -/
def askSlot (s : State) (p : PortId) (t : Tag) (job : Job) : State :=
  let b := bankOf job.index
  if s.hasPlace job then (s.setSlotPhase p t .reading).joinQueue job
  else
    let k := s.bank b
    let waiting := place k.slotsWaiting p (pick k.slotsWaiting p ++ [t])
    (s.setSlotPhase p t .admitting).setBank b { k with slotsWaiting := waiting }

/-- The Management Engine asks for a place for its job (R75, R152); the progress record keeps the job. -/
def askEngine (s : State) (job : Job) : State :=
  let b := bankOf job.index
  let s1 : State :=
    { s with engine := s.engine.map fun (e : Progress) => { e with jobs := e.jobs ++ [⟨job, none⟩] } }
  if s1.hasPlace job then (s1.setEnginePhase .job).joinQueue job
  else
    let k := s1.bank b
    (s1.setEnginePhase .admitting).setBank b { k with engineWaiting := some job }

/-! ## The Bank Admission Arbiter (R153) -/

/-- The job a slot waits for: its target read once issued, else the read of the named record. -/
def slotJob (s : State) (p : PortId) (t : Tag) : Option Job :=
  (s.slot p t).map fun x =>
    match x.targetRead with
    | some r => .bodyRead r.index r.generation (.slot p t)
    | none => .bodyRead x.named.index x.named.generation (.slot p t)

/-- The ports in the arbiter's order: from the port after the last granted one, wrapping from 7 to 0. -/
def grantOrder (last : PortId) : List PortId := allPorts.map fun k => last + 1 + k

/-- The first port in the arbiter's order with a slot waiting at the bank. -/
def nextPort (k : Bank) : Option PortId :=
  (grantOrder k.lastGranted).find? fun p => !(pick k.slotsWaiting p).isEmpty

/-- A port's longest waiting slot receives the place (R153 step 2). -/
def grantSlot (s : State) (b : BankId) (p : PortId) : State :=
  let k := s.bank b
  match pick k.slotsWaiting p with
  | [] => s
  | t :: rest =>
    let job := s.slotJob p t
    let s1 := s.setBank b { k with
      slotsWaiting := place k.slotsWaiting p rest
      lastGranted := p
      queue := k.queue ++ job.toList }
    s1.setSlotPhase p t .reading

/-- A free place is granted to a waiting claimant, the engine first (R153). Nothing changes where no
claimant waits. -/
def grant (s : State) (b : BankId) : State :=
  let k := s.bank b
  match k.engineWaiting with
  | some job =>
    (s.setBank b { k with engineWaiting := none, queue := k.queue ++ [job] }).setEnginePhase .job
  | none =>
    match nextPort k with
    | some p => s.grantSlot b p
    | none => s

/-- Steps 1 and 2 of a completion claim: the job leaves the head, and the place it frees is granted
(R146). -/
def leaveHead (s : State) (b : BankId) : State :=
  let k := s.bank b
  (s.setBank b { k with queue := k.queue.tail, writeHalf := false }).grant b

/-! ## Refresh ticks and retention loss (R155, R159, R160) -/

/-- The pointer page is the open page of the bank. -/
def pointerOpen (k : Bank) : Bool := decide (k.openPage.map OpenPage.page = some k.pointer)

/-- The damage claim of a lost page on one index, with the record's current generation; index 0 is passed
over (R160). -/
def lossClaim (T : Tables) (i : Index) : Tables :=
  if i.val = 0 then T else T.damageClaim i (T.entry i).generation

/-- A page is lost: its eight positions become undefined, each record in it meets a damage claim in
ascending slot order, and RETENTION_LOSS is raised (R160). The BROKEN frames that the damage claims place stand
in token order (R63, R168; log entry 28). -/
def losePage (s : State) (b : BankId) (p : PageNo) : State :=
  let s1 := (pageIndices b p).foldl (fun s i => s.writeStorage i (.undefined s.freeCount)) s
  { s1 with freeCount := s.freeCount + 1
            tables := (Tables.orderFrames s.tables
              ((pageIndices b p).foldl lossClaim s.tables)).raiseLoss b }

/-- A missed refresh: the pointer advances, and the pointer page counts as refreshed if it is open and is
lost otherwise (R159). -/
def missedRefresh (s : State) (b : BankId) : State :=
  let k := s.bank b
  let s1 := s.setBank b { k with pointer := k.pointer + 1 }
  if pointerOpen k then s1 else s1.losePage b k.pointer

/-- A refresh tick at a bank (R155). -/
def takeRefreshTick (s : State) (b : BankId) : State :=
  let k := s.bank b
  if k.debt < Config.maxDebt then
    let s1 := s.setBank b { k with debt := k.debt + 1 }
    if isIdle k.controller then s1.choicePoint b else s1
  else s.missedRefresh b

/-- The end of a refresh: an urgent run ends with the debt at 0, and the choice point follows (R143,
R156). -/
def endRefresh (s : State) (b : BankId) : State :=
  let k := s.bank b
  (s.setBank b { k with underRefresh := none, urgent := k.urgent && decide (k.debt ≠ 0) }).choicePoint b

end State

end Sys2Proof.Machine
end

