-- ==== Sys2Proof/Machine/Check.lean ====
section
/-! DEFINITION. Deciding a check (chapter 2): acceptance screening, the body reads, the decision, the fill
of a hold, and a RELEASE (chapter 3). -/

namespace Sys2Proof.Machine

/-! ## Tests in order -/

/-- A test of a table of tests: absent if it passes, its reason if it fails. -/
def failsWith (passes : Bool) (r : DenyReason) : Option DenyReason :=
  if passes then none else some r

/-- The reason of the first test that fails. -/
def firstDeny : List (Option DenyReason) → Option DenyReason
  | [] => none
  | some r :: _ => some r
  | none :: rest => firstDeny rest

namespace State

/-! ## The tag table (R165): a view of the request slots and the outbound queue -/

/-- The tag is in the port's tag table: its request has not yet been answered. -/
def tagInTable (s : State) (p : PortId) (t : Tag) : Bool := (s.slot p t).isSome

/-- The frame is an ANSWER under this tag. -/
def answerOf (t : Tag) : OutFrame → Bool
  | .answer t' _ => t' == t
  | .broken _ _ => false

/-- The tag is outstanding: in the tag table, or with its ANSWER waiting in the outbound queue (R165). -/
def outstanding (s : State) (p : PortId) (t : Tag) : Bool :=
  s.tagInTable p t || (s.tables.queueOf p).any (answerOf t)

/-- The port's tag table holds no tag. -/
def noTags (s : State) (p : PortId) : Bool := allTags.all fun t => !s.tagInTable p t

/-! ## Tests that screening and decision share (R26, R33) -/

/-- Step 3: the port's domain is OPEN. -/
def portDomainOpen (T : Tables) (p : PortId) : Bool :=
  match T.portDomain p with
  | some d => decide ((T.domain d).state = .opened)
  | none => false

/-- Step 7 on a record state: LIVE passes. FREE and PENDING, which step 5 has denied, are STALE. -/
def stateReason : RecState → Option DenyReason
  | .live => none
  | .suspended => some .suspended
  | .draining => some .revoked
  | .damaged => some .damaged
  | .free | .pending => some .stale

/-- A handle is stale: the record is FREE or PENDING, or the generation differs (R2). -/
def staleHandle (T : Tables) (i : Index) (g : Generation) : Bool :=
  decide ((T.entry i).state = .free ∨ (T.entry i).state = .pending ∨ (T.entry i).generation ≠ g)

/-- Step 6: the record's domain is the port's domain or 15. -/
def domainAdmits (T : Tables) (p : PortId) (i : Index) : Bool :=
  decide ((T.entry i).domain = some commonDomain ∨
    ((T.entry i).domain.isSome ∧ (T.entry i).domain = T.portDomain p))

/-- Steps 2 to 7 of R26 for the named record, but step 4. -/
def statusTests (s : State) (p : PortId) (i : Index) (g : Generation) : List (Option DenyReason) :=
  [failsWith (decide (s.partState ≠ .clearing)) .clearing,
   failsWith (portDomainOpen s.tables p) .domainClosed,
   failsWith (!staleHandle s.tables i g) .stale,
   failsWith (domainAdmits s.tables p i) .foreign,
   stateReason (s.tables.entry i).state]

/-! ## Acceptance screening (R26, R27, R28) -/

/-- Step 1: the port state. A RESETTING port's frames never reach the screening (R137). -/
def portReason : PortState → Option DenyReason
  | .unbound => some .portUnbound
  | .fenced => some .portFenced
  | .active | .resetting => none

/-- The lowest-numbered EMPTY entry of a port's hold table (R27). -/
def lowestEmpty (T : Tables) (p : PortId) : Option Token :=
  allTokens.find? fun t => decide (T.hold p t = .empty)

/-- Step 8: a HOLD finds an EMPTY entry. -/
def roomReason (T : Tables) (p : PortId) : CheckKind → Option DenyReason
  | .probe => none
  | .hold => failsWith (lowestEmpty T p).isSome .holdFull

/-- The deny reason of acceptance screening, absent if every test passes (R26). -/
def screenReason (s : State) (p : PortId) (r : CheckRequest) : Option DenyReason :=
  let status := s.statusTests p r.index r.generation
  firstDeny (portReason (s.tables.port p).state :: status.take 2 ++
    failsWith (decide (r.index.val ≠ 0)) .badIndex :: status.drop 2 ++
    [roomReason s.tables p r.kind])

/-- The effective clearance: the lower of the port's maximum and the claimed one (R35). -/
def effectiveClearance (T : Tables) (p : PortId) (claimed : Clearance) : Clearance :=
  match (T.port p).binding with
  | some b => if claimed ≤ b.maxClearance then claimed else b.maxClearance
  | none => claimed

/-- The token a request reserves: the lowest EMPTY entry for a HOLD, none for a PROBE (R27). -/
def reservedToken (T : Tables) (p : PortId) : CheckKind → Option Token
  | .probe => none
  | .hold => lowestEmpty T p

/-- The reserved entry of a request becomes RESERVED. -/
def reserve (T : Tables) (p : PortId) : Option Token → Tables
  | some t => T.setHold p t .reserved
  | none => T

/-- The slot of a request that passed screening (R25, R28, R35). -/
def newSlot (s : State) (p : PortId) (r : CheckRequest) : CheckSlot where
  request := r
  clearance := effectiveClearance s.tables p r.claimed
  token := reservedToken s.tables p r.kind
  kind := ((s.tables.entry r.index).kind).getD .dataKind
  target := (s.tables.entry r.index).target
  named := ⟨r.index, (s.tables.entry r.index).generation, none⟩
  targetRead := none
  phase := .reading

/-- A CHECK frame accepted under a tag is screened: it is denied at once, or it reserves, occupies its slot
and asks for its body read (R26, R29, R166). -/
def screen (s : State) (p : PortId) (t : Tag) (r : CheckRequest) : State :=
  match s.screenReason p r with
  | some d => s.onTables fun T => T.placeFrame p (.answer t (.deny d))
  | none =>
    let slot := s.newSlot p r
    let s1 := (s.onTables fun T => reserve T p slot.token).setSlot p t (some slot)
    s1.askSlot p t (.bodyRead slot.named.index slot.named.generation (.slot p t))

/-! ## The decision (R33 to R40) -/

/-- Step 7T: for an alias, its target is LIVE. -/
def targetReason (s : State) (x : CheckSlot) : Option DenyReason :=
  match x.kind, x.target with
  | .aliasKind, some t => stateReason (s.tables.entry t).state
  | .aliasKind, none => some .stale
  | .dataKind, _ => none

/-- The completed body reads of a slot. -/
def readsOf (x : CheckSlot) : List ReadRecord := x.named :: x.targetRead.toList

/-- A body read whose check code did not agree. -/
def mismatched (r : ReadRecord) : Bool := r.result.any fun x => !x.agreed

/-- Step 9: every body read in the slot had an agreeing check code. -/
def codesAgree (x : CheckSlot) : Bool := (readsOf x).all fun r => r.result.any fun y => y.agreed

/-- The tests of R31, made at the completion of an alias read: steps 2 to 7 for the named record, step 7
for the target, and the check code. They are the first tests of the decision (R33). -/
def earlyTests (s : State) (p : PortId) (x : CheckSlot) : List (Option DenyReason) :=
  s.statusTests p x.named.index x.request.generation ++
    [s.targetReason x, failsWith (codesAgree x) .damaged]

/-- The body of the named record. -/
def namedBody (x : CheckSlot) : Option Body := x.named.result.map ReadResult.body

/-- The DATA body concerned: the named record's for a direct check, the target's through an alias (R38). -/
def dataBodyOf (x : CheckSlot) : Option Body :=
  match x.kind with
  | .dataKind => namedBody x
  | .aliasKind => x.targetRead.bind fun r => r.result.map ReadResult.body

/-- The index of the DATA record concerned: the named record, or the target through an alias (R38). -/
def dataIndexOf (x : CheckSlot) : Index :=
  match x.kind with
  | .dataKind => x.named.index
  | .aliasKind => x.target.getD x.named.index

/-- Step 10: the effective clearance is at least the floor of the named record's body (R35). -/
def clearancePasses (x : CheckSlot) : Bool :=
  (namedBody x).any fun b => decide (b.floor ≤ x.clearance)

/-- Step 11: the length is 1 to 4,096 and offset plus length, computed exactly, is within the extent of
the named record's body (R36). -/
def rangePasses (x : CheckSlot) : Bool :=
  (namedBody x).any fun b =>
    decide (1 ≤ x.request.length.toNat ∧ x.request.length.toNat ≤ 4096 ∧
      x.request.offset.toNat + x.request.length.toNat ≤ b.extent.toNat)

/-- The rights a check is tested against: the body's, or the intersection through an alias (R37). -/
def rightsInForce (x : CheckSlot) : Rights :=
  match namedBody x, dataBodyOf x with
  | some b, some d => b.rights.inter d.rights
  | _, _ => ⟨false, false⟩

/-- The record has no room for a pin (R38). -/
def pinsFull (T : Tables) (i : Index) : Bool := decide (Config.maxPins ≤ (T.entry i).pins)

/-- PIN_LIMIT, for a HOLD only: on the named record, and on the target through an alias (R38). -/
def pinPasses (T : Tables) (x : CheckSlot) : Bool :=
  match x.request.kind with
  | .probe => true
  | .hold => !(pinsFull T x.named.index || pinsFull T (dataIndexOf x))

/-- CONTENDED, for WRITE access: the DATA record is SOLE and its writer is present (R38). -/
def contentionPasses (T : Tables) (x : CheckSlot) : Bool :=
  match x.request.access with
  | .read => true
  | .write =>
    !(decide ((dataBodyOf x).map Body.sharing = some .sole) &&
      (T.entry (dataIndexOf x)).writer.isSome)

/-- The verdict's deny reason, absent for ALLOW (R33). -/
def decisionReason (s : State) (p : PortId) (x : CheckSlot) : Option DenyReason :=
  firstDeny (s.earlyTests p x ++
    [failsWith (clearancePasses x) .clearance,
     failsWith (rangePasses x) .range,
     failsWith ((rightsInForce x).has x.request.access) .rights,
     failsWith (pinPasses s.tables x) .pinLimit,
     failsWith (contentionPasses s.tables x) .contended])

/-- The address of an ALLOW, computed exactly (R39). -/
def allowAddress (x : CheckSlot) : BitVec 48 :=
  let named := ((namedBody x).map Body.start).getD 0
  let base := match x.kind with
    | .dataKind => 0
    | .aliasKind => ((dataBodyOf x).map Body.start).getD 0
  BitVec.ofNat 48 (base + named + x.request.offset.toNat)

/-- The ALLOW answer (R39). -/
def allowVerdict (x : CheckSlot) : Verdict :=
  .allow (allowAddress x) (((namedBody x).map Body.tag).getD 0) x.token

/-- The answer of a decision. -/
def verdictOf (x : CheckSlot) : Option DenyReason → Verdict
  | some r => .deny r
  | none => allowVerdict x

/-- The hold limit of a port (R131). -/
def holdLimit (T : Tables) (p : PortId) : BitVec 16 :=
  match (T.port p).binding with
  | some b => b.holdLimit
  | none => 0

/-- The fields of the entry an allowed HOLD fills (R40 step 1), its timer started with the port's limit. -/
def heldOf (T : Tables) (p : PortId) (x : CheckSlot) : HeldHold where
  index := x.named.index
  generation := x.request.generation
  resolved := dataIndexOf x
  access := x.request.access
  offset := x.request.offset
  length := x.request.length
  clearance := x.clearance
  timer := holdLimit T p

/-- An allowed HOLD fills its reserved entry: pins rise, the writer is set, the entry joins the fill order
and its timer starts (R40, R54). -/
def fillHold (T : Tables) (p : PortId) (t : Token) (x : CheckSlot) : Tables :=
  let h := heldOf T p x
  let T1 := T.setHold p t (.held h)
  let T2 := T1.pinUp h.index
  let T3 := if h.resolved = h.index then T2 else T2.pinUp h.resolved
  let T4 := if x.request.access = .write ∧ (dataBodyOf x).map Body.sharing = some .sole then
      T3.setWriter h.resolved (some p)
    else T3
  { T4 with fillOrder := T4.fillOrder ++ [(p, t)] }

/-- The reserved entry of a request returns to EMPTY (R27). -/
def returnEntry (T : Tables) (p : PortId) (x : CheckSlot) : Tables :=
  match x.token with
  | some t => T.setHold p t .empty
  | none => T

/-- What a decision does to the hold table: an ALLOW fills, a DENY returns the reservation (R40). -/
def settleEntry (T : Tables) (p : PortId) (x : CheckSlot) (reason : Option DenyReason) : Tables :=
  match reason, x.token with
  | none, some t => fillHold T p t x
  | _, _ => returnEntry T p x

/-- The damage claim of one read, with the read's generation, where its check code did not agree (R34). -/
def damageOfRead (T : Tables) (r : ReadRecord) : Tables :=
  if mismatched r then T.damageClaim r.index r.generation else T

/-- The damage claims of a slot's mismatched reads, the named record's and then the target's (R34). The BROKEN
frames of two damage claims stand in token order (R63, R168; log entry 28). -/
def readDamage (T : Tables) (x : CheckSlot) : Tables :=
  match x.targetRead with
  | none => damageOfRead T x.named
  | some tr => Tables.orderFrames T (damageOfRead (damageOfRead T x.named) tr)

/-- A RESETTING port whose tag table has emptied completes its reset in this claim (R138). -/
def completeIfLast (s : State) (p : PortId) : State :=
  if (s.tables.port p).state = .resetting ∧ s.noTags p = true then
    s.onTables fun T => T.completeReset p
  else s

/-- The decision claim of a request (R33, R40, R41, R42): the verdict is formed; the reservation is filled
or returned; the answer is placed, or discarded on a RESETTING port; then the damage claims are made (log
entry 15); the tag leaves the tag table, and the last one completes a port reset. -/
def decideSlot (s : State) (p : PortId) (t : Tag) (x : CheckSlot) : State :=
  let reason := s.decisionReason p x
  let resetting := decide ((s.tables.port p).state = .resetting)
  let settle := fun (T : Tables) =>
    if resetting then returnEntry T p x
    else (settleEntry T p x reason).placeFrame p (.answer t (verdictOf x reason))
  let s1 := s.onTables fun T => readDamage (settle T) x
  (s1.setSlot p t none).completeIfLast p

/-! ## Completion of a check's read (R30 to R32) -/

/-- The target read an alias check issues, with the target's generation as it stands (R31). -/
def targetReadOf (s : State) (x : CheckSlot) : ReadRecord :=
  ⟨dataIndexOf x, (s.tables.entry (dataIndexOf x)).generation, none⟩

/-- A slot takes the result of its body read: the last read decides; an alias read that passes its tests
is followed by the target read (R30, R31, R32). -/
def slotTakes (s : State) (p : PortId) (t : Tag) (r : ReadResult) : State :=
  match s.slot p t with
  | none => s
  | some x =>
    match x.targetRead with
    | some tr => s.decideSlot p t { x with targetRead := some { tr with result := some r } }
    | none =>
      let x1 := { x with named := { x.named with result := some r } }
      match x.kind with
      | .dataKind => s.decideSlot p t x1
      | .aliasKind =>
        match firstDeny (s.earlyTests p x1) with
        | some _ => s.decideSlot p t x1
        | none =>
          let tr := s.targetReadOf x1
          (s.setSlot p t (some { x1 with targetRead := some tr })).askSlot p t
            (.bodyRead tr.index tr.generation (.slot p t))

/-! ## RELEASE (R57, R58, R59) -/

/-- The token a RELEASE names, absent above 7. -/
def releaseToken (k : BitVec 4) : Option Token :=
  if h : k.toNat < 8 then some ⟨k.toNat, h⟩ else none

/-- The answer of a RELEASE by the entry it names (R57, R58). -/
def releaseVerdict (k : BitVec 4) : HoldEntry → Verdict
  | .held _ => .released k
  | .broken r _ => .late k r
  | .reserved | .empty => .unknownToken k

/-- The effect of a RELEASE on the entry it names (R57). -/
def releaseEntry (T : Tables) (p : PortId) (t : Token) : Tables :=
  match T.hold p t with
  | .held h => Tables.testRecords none (T.unpin p t h .empty) h
  | .broken _ _ => (T.withdraw p t).setHold p t .empty
  | .reserved | .empty => T

/-- A RELEASE is taken by the Hold Unit in one claim (R57): the entry, then the answer at the tail. -/
def takeRelease (s : State) (p : PortId) (tag : Tag) (k : BitVec 4) : State :=
  s.onTables fun T =>
    match releaseToken k with
    | some t => (releaseEntry T p t).placeFrame p (.answer tag (releaseVerdict k (T.hold p t)))
    | none => T.placeFrame p (.answer tag (.unknownToken k))

/-! ## Fencing (R134, R167) -/

/-- A protocol fault acts on the port according to its state (R134, R167). -/
def fence (T : Tables) (p : PortId) (c : FenceCause) : Tables :=
  match (T.port p).state with
  | .active => (T.setPort p { T.port p with state := .fenced }).raiseFenced p c
  | .fenced => T.raiseFenced p c
  | .unbound | .resetting => T

end State

end Sys2Proof.Machine
end

