-- ==== Sys2Proof/Machine/Engine.lean ====
section
/-! DEFINITION. The Management Engine (chapters 4, 6, 7, 10): the acceptance claim of every request, and
the claims in which its bank jobs complete. -/

namespace Sys2Proof.Machine

/-! ## Contents of answers (R190, R191) -/

/-- An optional number in one byte, FFh when absent. -/
def byteOr (x : Option Nat) : Byte :=
  match x with
  | some n => byteNat n
  | none => 0xFF

/-- The port entry (R190). -/
def portEntryBytes (p : PortId) (e : PortEntry) : List Byte :=
  [byteNat p.val, e.state.code, byteOr (e.binding.map fun b => b.domain.val),
   byteOr (e.binding.map fun b => b.maxClearance.val)] ++
    bytes2 ((e.binding.map Binding.holdLimit).getD 0)

/-- The domain entry (R190). -/
def domainEntryBytes (d : DomainId) (e : DomainEntry) : List Byte :=
  [byteNat d.val, e.state.code] ++ bytesNat2 e.quota ++ bytesNat2 e.count

/-- An index and a generation. -/
def handleBytes (i : Index) (g : Generation) : List Byte := bytesNat2 i.val ++ bytes2 g

/-- A deadline: a present byte, then the value (R191). R191 gives no value for an absent deadline; the model sends six
zeros behind the present byte of 0 (log entry 31). -/
def deadlineBytes : Option Epoch → List Byte
  | some d => 1 :: bytes6 d
  | none => 0 :: bytes6 0

/-- A notice generation: a present byte, then the value (R191). R191 gives no value for an absent one; the model sends
two zeros behind the present byte of 0 (log entry 31). -/
def noticeGenBytes : Option Generation → List Byte
  | some g => 1 :: bytes2 g
  | none => 0 :: bytes2 0

/-- The status section of the QUERY answer, but for its last byte (R191). -/
def statusSection (i : Index) (e : StatusEntry) : List Byte :=
  bytesNat2 i.val ++ [e.state.code] ++ bytes2 e.generation ++
    [byteOr (e.domain.map Fin.val), kindCode e.kind] ++ bytesNat2 ((e.target.map Fin.val).getD 0) ++
    [byteNat e.pins, byteOr (e.writer.map Fin.val)] ++ deadlineBytes e.deadline ++
    [e.reasons.code] ++ noticeGenBytes e.noticeGen ++ [byteNat e.aliases.length] ++
    e.aliases.flatMap fun a => bytesNat2 a.val

/-- The body section, with the stored check code (R6, R191). -/
def bodySection (r : ReadResult) : List Byte := r.body.bytes ++ bytes2 r.code

/-- The QUERY answer: the status section, body present, and the body section where it is (R191). -/
def queryBytes (i : Index) (e : StatusEntry) (r : Option ReadResult) : List Byte :=
  statusSection i e ++
    match r with
    | some r => 1 :: bodySection r
    | none => [0]

/-- The INFO content (R182, R190). -/
def infoBytes : List Byte :=
  bytes2 Config.vendorCode ++ bytes2 Config.partCode ++ [Config.revision] ++ bytesNat2 4095 ++
    [8, 16, 32, 8, 12, 8, 16]

/-- The notice entry of a subject, with the length of the list after its removal (R114, R191). -/
def noticeBytes (T : Tables) (x : Subject) (remaining : Nat) : List Byte :=
  match x with
  | .record i =>
    1 :: bytesNat2 i.val ++ [(T.entry i).reasons.code] ++ noticeGenBytes (T.entry i).noticeGen ++
      [0] ++ bytesNat2 remaining
  | .port p =>
    2 :: bytesNat2 p.val ++ [(T.portNotice p).code] ++ noticeGenBytes none ++
      [causeCode (T.portNotice p).cause] ++ bytesNat2 remaining
  | .domain d =>
    3 :: bytesNat2 d.val ++ [bit (pick T.domainClosed d) 0] ++ noticeGenBytes none ++ [0] ++
      bytesNat2 remaining
  | .bank b =>
    4 :: bytesNat2 b.val ++ [bit (pick T.bankLoss b) 0] ++ noticeGenBytes none ++ [0] ++
      bytesNat2 remaining

namespace State

/-- ALERT_N is asserted (driven low): the Notice List is not empty and alerting is enabled (R117). -/
def alertAsserted (s : State) : Bool := !s.tables.notices.isEmpty && s.alertEnable

/-- The STATUS content (R183, R190). -/
def statusBytes (s : State) : List Byte :=
  [1] ++ bytes6 s.epoch ++ bytes2 s.tickPeriod ++ [if s.alertEnable then 1 else 0] ++
    bytesNat2 s.tables.freeList.length ++ bytesNat2 s.tables.parkedCount ++
    bytesNat2 s.tables.notices.length ++ (allBanks.map fun b => byteNat (s.bank b).debt) ++
    [byteOr (s.sweep.map fun w => w.domain.val)] ++
    allPorts.map fun p => (s.tables.port p).state.code

/-! ## Placing the answer (R179) -/

/-- The engine's answer is placed in the answer buffer and the interface becomes ANSWER_READY (R179). -/
def answer (s : State) (st : AnswerStatus) (content : List Byte) : State :=
  match s.engine with
  | some e =>
    { s with
      answerBuffer := some ⟨st, requestKind e.request, content⟩
      iface := .answerReady
      engine := some { e with phase := .answered } }
  | none => s

/-- A refusal, which carries no content and changes no other state (R74). -/
def refuse (s : State) (st : AnswerStatus) : State := s.answer st []

/-- The answer to a port request, with the port's entry at the end of the claim (R131). -/
def answerPort (s : State) (st : AnswerStatus) (p : PortId) : State :=
  s.answer st (portEntryBytes p (s.tables.port p))

/-- The answer to a domain request, with the domain's entry at the end of the claim (R121). -/
def answerDomain (s : State) (st : AnswerStatus) (d : DomainId) : State :=
  s.answer st (domainEntryBytes d (s.tables.domain d))

/-- The engine keeps the index and generation it took from the free list (R74). -/
def setTaken (s : State) (x : Index × Generation) : State :=
  { s with engine := s.engine.map fun (e : Progress) => { e with taken := some x } }

/-- The engine keeps the target extent of an alias amend (R84). -/
def setTargetExtent (s : State) (x : BitVec 40) : State :=
  { s with engine := s.engine.map fun (e : Progress) => { e with targetExtent := some x } }

/-- A job that has not completed takes its result. -/
def withResult (r : JobResult) (j : EngineJob) : EngineJob :=
  if j.result.isNone then { j with result := some r } else j

/-- The engine keeps the result of its job; at most one of its jobs has not completed (R74, R145). -/
def setJobResult (s : State) (r : JobResult) : State :=
  { s with engine := s.engine.map fun (e : Progress) => { e with jobs := e.jobs.map (withResult r) } }

/-! ## Requests on the part as a whole (R182, R183, R184) -/

/-- INFO (R182). -/
def acceptInfo (s : State) : State := s.answer .done infoBytes

/-- STATUS (R183). -/
def acceptStatus (s : State) : State := s.answer .done s.statusBytes

/-- CONFIGURE (R184). The interval in progress keeps its length. -/
def acceptConfigure (s : State) (a : ConfigureArgs) : State :=
  match flagOf a.alertEnable with
  | none => s.refuse .badArgument
  | some enable =>
    if a.period = 0 then s.refuse .badArgument
    else { s with tickPeriod := a.period, alertEnable := enable }.answer .done []

/-! ## Requests on ports (R132, R133, R136) -/

/-- The binding of a BIND_PORT whose fields are in range (R132 step 1). -/
def bindingOf (a : BindPortArgs) : Option Binding :=
  match domainOf a.domain, clearanceOf a.maxClearance with
  | some d, some c => if a.holdLimit = 0 then none else some ⟨d, c, a.holdLimit⟩
  | _, _ => none

/-- BIND_PORT (R132). -/
def acceptBindPort (s : State) (a : BindPortArgs) : State :=
  match portOf a.port with
  | none => s.refuse .badArgument
  | some p =>
    match bindingOf a with
    | none => s.answerPort .badArgument p
    | some b =>
      if (s.tables.port p).state ≠ .unbound then s.answerPort .portBusy p
      else if (s.tables.domain b.domain).state ≠ .opened then s.answerPort .domainState p
      else (s.onTables fun T => T.setPort p ⟨.active, some b⟩).answerPort .done p

/-- The port is ACTIVE or FENCED (R133, R136 step 2). -/
def portIdle (T : Tables) (p : PortId) : Bool :=
  decide ((T.port p).state = .active ∨ (T.port p).state = .fenced)

/-- Every entry of the port's hold table is EMPTY (R133 step 3). -/
def noHolds (T : Tables) (p : PortId) : Bool := allTokens.all fun t => decide (T.hold p t = .empty)

/-- UNBIND_PORT (R133). -/
def acceptUnbindPort (s : State) (a : PortArgs) : State :=
  match portOf a.port with
  | none => s.refuse .badArgument
  | some p =>
    if portIdle s.tables p = false then s.answerPort .portBusy p
    else if noHolds s.tables p = false ∨ s.noTags p = false then s.answerPort .portBusy p
    else (s.onTables fun T => T.setPort p ⟨.unbound, none⟩).answerPort .done p

/-- The beginning claim of a port reset, which also completes it where no tag is in the tag table (R136,
R138). -/
def beginPortReset (s : State) (p : PortId) : State :=
  (s.onTables fun T => T.setPort p { T.port p with state := .resetting }).completeIfLast p

/-- PORT_RESET (R136). -/
def acceptPortReset (s : State) (a : PortArgs) : State :=
  match portOf a.port with
  | none => s.refuse .badArgument
  | some p =>
    if portIdle s.tables p = false then s.answerPort .portBusy p
    else (s.beginPortReset p).answerPort .accepted p

/-! ## Requests on domains (R124 to R127) -/

/-- OPEN_DOMAIN (R124). -/
def acceptOpenDomain (s : State) (a : QuotaArgs) : State :=
  match domainOf a.domain with
  | none => s.refuse .badArgument
  | some d =>
    let e := s.tables.domain d
    if 4095 < a.quota.toNat then s.answerDomain .badArgument d
    else if e.state ≠ .closed then s.answerDomain .domainState d
    else (s.onTables fun T =>
      T.setDomain d { e with state := .opened, quota := a.quota.toNat }).answerDomain .done d

/-- SET_QUOTA (R125). -/
def acceptSetQuota (s : State) (a : QuotaArgs) : State :=
  match domainOf a.domain with
  | none => s.refuse .badArgument
  | some d =>
    let e := s.tables.domain d
    if 4095 < a.quota.toNat then s.answerDomain .badArgument d
    else if e.state ≠ .opened then s.answerDomain .domainState d
    else if a.quota.toNat < e.count then s.answerDomain .quota d
    else (s.onTables fun T => T.setDomain d { e with quota := a.quota.toNat }).answerDomain .done d

/-- The close claim (R127): CLOSING, the breaks of every port bound to the domain, the sweep. -/
def closeClaim (s : State) (d : DomainId) : State :=
  let s1 := s.onTables fun T =>
    let T1 := T.setDomain d { T.domain d with state := .closing }
    T1.breakAll .domainClosed none (T1.heldWhere fun p _ _ => decide (T1.portDomain p = some d))
  { s1 with sweep := some ⟨d, 1⟩ }

/-- CLOSE_DOMAIN (R126). -/
def acceptCloseDomain (s : State) (a : DomainArgs) : State :=
  match domainOf a.domain with
  | none => s.refuse .badArgument
  | some d =>
    if d = commonDomain then s.answerDomain .badArgument d
    else if (s.tables.domain d).state ≠ .opened then s.answerDomain .domainState d
    else if s.sweep.isSome then s.answerDomain .sweepBusy d
    else (s.closeClaim d).answerDomain .accepted d

/-! ## Establishes (R77, R79) -/

/-- A deadline, if given, exceeds the epoch (R102). -/
def deadlineAhead (s : State) (d : Option Epoch) : Bool := d.all fun d => decide (s.epoch < d)

/-- What an ESTABLISH_DATA asks for, absent where an encoding test fails (R188). -/
def establishDataOf (a : EstablishDataArgs) : Option (DomainId × DataBody × Option Epoch) :=
  match domainOf a.domain, rightsArg a.rights, sharingArg a.sharing, clearanceOf a.floor,
      deadlineArg a.deadlinePresent a.deadline with
  | some d, some r, some h, some f, some dl => some (d, ⟨a.base, a.extent, r, h, f, a.tag⟩, dl)
  | _, _, _, _, _ => none

/-- The refusal of the tests on a domain and the free list that both establishes make. -/
def quotaFull (T : Tables) (d : DomainId) : Bool :=
  decide ((T.domain d).quota ≤ (T.domain d).count)

/-- The refusal of an ESTABLISH_DATA (R77 steps 1 to 4). -/
def establishDataRefusal (s : State) (d : DomainId) (body : DataBody) (dl : Option Epoch) :
    Option AnswerStatus :=
  if (s.tables.domain d).state ≠ .opened then some .domainState
  else if quotaFull s.tables d = true then some .quota
  else if s.tables.freeList = [] then some .tableFull
  else if body.inRange = false ∨ s.deadlineAhead dl = false then some .badArgument
  else none

/-- The free-list head is taken with its generation as it stands (R8); its job is asked for. -/
def takeAndAsk (s : State) (d : DomainId) (k : RecKind) (target : Option Index)
    (job : Index → Generation → Job) : State :=
  match s.tables.freeList with
  | [] => s
  | i :: rest =>
    let g := (s.tables.entry i).generation
    ((s.onTables fun T => T.takeHead i rest d k target).setTaken (i, g)).askEngine (job i g)

/-- ESTABLISH_DATA (R77). -/
def acceptEstablishData (s : State) (a : EstablishDataArgs) : State :=
  match establishDataOf a with
  | none => s.refuse .badArgument
  | some (d, body, dl) =>
    match s.establishDataRefusal d body dl with
    | some st => s.refuse st
    | none => s.takeAndAsk d .dataKind none fun i g => .bodyWrite i g (.dataBody body)

/-- What an ESTABLISH_ALIAS asks for, absent where an encoding test fails (R188). -/
def establishAliasOf (a : EstablishAliasArgs) :
    Option (DomainId × Index × AliasBody × Option Epoch) :=
  match domainOf a.domain, indexOf a.target, rightsArg a.rights, clearanceOf a.floor,
      deadlineArg a.deadlinePresent a.deadline with
  | some d, some t, some r, some f, some dl => some (d, t, ⟨a.offset, a.extent, r, f, a.tag⟩, dl)
  | _, _, _, _, _ => none

/-- A record is LIVE or SUSPENDED. -/
def usable (T : Tables) (i : Index) : Bool :=
  decide ((T.entry i).state = .live ∨ (T.entry i).state = .suspended)

/-- The domain rule for an alias of domain `d` (R19). -/
def domainRule (T : Tables) (d : DomainId) (t : Index) : Bool :=
  decide ((T.entry t).domain = some d ∨ (T.entry t).domain = some commonDomain)

/-- The refusal of an ESTABLISH_ALIAS (R79 steps 1 to 10). -/
def establishAliasRefusal (s : State) (d : DomainId) (t : Index) (g : Generation) (body : AliasBody)
    (dl : Option Epoch) : Option AnswerStatus :=
  if (s.tables.domain d).state ≠ .opened then some .domainState
  else if t.val = 0 then some .badArgument
  else if staleHandle s.tables t g = true then some .stale
  else if (s.tables.entry t).kind ≠ some .dataKind then some .badArgument
  else if usable s.tables t = false then some .state
  else if domainRule s.tables d t = false then some .foreign
  else if Config.maxAliases ≤ (s.tables.entry t).aliases.length then some .aliasLimit
  else if quotaFull s.tables d = true then some .quota
  else if s.tables.freeList = [] then some .tableFull
  else if body.inRange = false ∨ s.deadlineAhead dl = false then some .badArgument
  else none

/-- ESTABLISH_ALIAS (R79): its first job reads the target, at the target's generation. -/
def acceptEstablishAlias (s : State) (a : EstablishAliasArgs) : State :=
  match establishAliasOf a with
  | none => s.refuse .badArgument
  | some (d, t, body, dl) =>
    match s.establishAliasRefusal d t a.targetGeneration body dl with
    | some st => s.refuse st
    | none =>
      s.takeAndAsk d .aliasKind (some t) fun _ _ => .bodyRead t (s.tables.entry t).generation .engine

/-! ## Requests by handle (R76) -/

/-- The two tests of R76, after the encoding test of the index (R188). -/
def handleRefusal (s : State) (i : Index) (g : Generation) : Option AnswerStatus :=
  if i.val = 0 then some .badArgument
  else if staleHandle s.tables i g = true then some .stale
  else none

/-! ## AMEND (R82 to R84) -/

/-- A masked field: absent where its mask bit is clear, and the encoding test where it is set. The outer
option is the test. -/
def masked {α : Type} (on : Bool) (x : Option α) : Option (Option α) :=
  if on then x.map some else some none

/-- The deadline change of a mask: bit 5 sets, bit 6 clears (R190). Both at once are refused at step 2. -/
def deadlineChange (mask : Byte) (d : Epoch) : DeadlineChange :=
  if mask.getLsbD 5 then .set d else if mask.getLsbD 6 then .clear else .keep

/-- The changes of an AMEND, absent where an encoding test of a masked field fails (R188, R190). -/
def changesOf (a : AmendArgs) : Option AmendChanges :=
  match masked (a.mask.getLsbD 0) (rightsArg a.rights), masked (a.mask.getLsbD 1) (sharingArg a.sharing),
      masked (a.mask.getLsbD 2) (clearanceOf a.floor) with
  | some r, some h, some f =>
    some ⟨r, h, f, if a.mask.getLsbD 3 then some a.extent else none,
      if a.mask.getLsbD 4 then some a.tag else none, deadlineChange a.mask a.deadline⟩
  | _, _, _ => none

/-- The mask of an AMEND is admitted: at least one change, and not both deadline bits (R82, R190). -/
def maskAdmitted (mask : Byte) : Bool :=
  decide (mask.extractLsb' 0 7 ≠ 0) && !(mask.getLsbD 5 && mask.getLsbD 6)

/-- A deadline set exceeds the epoch (R82, R102). -/
def deadlineChangeAhead (s : State) : DeadlineChange → Bool
  | .set d => decide (s.epoch < d)
  | .keep | .clear => true

/-- Step 2 of R82: the changes are ones the record admits. -/
def changesAdmitted (s : State) (i : Index) (mask : Byte) (c : AmendChanges) : Bool :=
  maskAdmitted mask && !(c.sharing.isSome && decide ((s.tables.entry i).kind = some .aliasKind)) &&
    (c.extent.all extentInRange) && s.deadlineChangeAhead c.deadline

/-- The refusal of an AMEND at acceptance (R76, R82 steps 1 to 3). -/
def amendRefusal (s : State) (i : Index) (g : Generation) (mask : Byte) (c : AmendChanges) :
    Option AnswerStatus :=
  match s.handleRefusal i g with
  | some st => some st
  | none =>
    if usable s.tables i = false then some .state
    else if s.changesAdmitted i mask c = false then some .badArgument
    else if c.extent.isSome = true ∧ (s.tables.entry i).kind = some .dataKind ∧
        (s.tables.entry i).aliases ≠ [] then some .referenced
    else none

/-- The changes touch the deadline alone (R83). -/
def deadlineOnly (c : AmendChanges) : Bool :=
  c.rights.isNone && c.sharing.isNone && c.floor.isNone && c.extent.isNone && c.tag.isNone

/-- The target whose body an AMEND reads first: that of an alias whose extent changes (R84). -/
def amendTarget (s : State) (i : Index) (c : AmendChanges) : Option Index :=
  if c.extent.isSome = true ∧ (s.tables.entry i).kind = some .aliasKind then (s.tables.entry i).target
  else none

/-- An AMEND that passed its tests goes on in one of three ways (R82). -/
def amendOn (s : State) (i : Index) (g : Generation) (c : AmendChanges) (force : Bool) : State :=
  if deadlineOnly c then (s.onTables fun T => T.applyDeadline i c.deadline).answer .done []
  else
    match s.amendTarget i c with
    | some t => s.askEngine (.bodyRead t (s.tables.entry t).generation .engine)
    | none => s.askEngine (.amendJob i g c force)

/-- AMEND (R82). -/
def acceptAmend (s : State) (a : AmendArgs) : State :=
  match indexOf a.index, flagOf a.force, changesOf a with
  | some i, some force, some c =>
    match s.amendRefusal i a.generation a.mask c with
    | some st => s.refuse st
    | none => s.amendOn i a.generation c force
  | _, _, _ => s.refuse .badArgument

/-! ## SUSPEND, RESUME, REVOKE (R87, R88) -/

/-- A record's state is changed, and no other field (R11). -/
def setRecState (s : State) (i : Index) (x : RecState) : State :=
  s.onTables fun T => T.modEntry i fun e => { e with state := x }

/-- A SUSPEND or RESUME: from one state to the other, or refused STATE (R87). -/
def acceptChange (s : State) (a : HandleArgs) (found next : RecState) : State :=
  match indexOf a.index with
  | none => s.refuse .badArgument
  | some i =>
    match s.handleRefusal i a.generation with
    | some st => s.refuse st
    | none =>
      if (s.tables.entry i).state = found then (s.setRecState i next).answer .done []
      else s.refuse .state

/-- SUSPEND (R87). -/
def acceptSuspend (s : State) (a : HandleArgs) : State := s.acceptChange a .live .suspended

/-- RESUME (R87). -/
def acceptResume (s : State) (a : HandleArgs) : State := s.acceptChange a .suspended .live

/-- The refusal of a REVOKE (R76, R88). -/
def revokeRefusal (s : State) (i : Index) (g : Generation) (casc : Bool) : Option AnswerStatus :=
  match s.handleRefusal i g with
  | some st => some st
  | none =>
    if Tables.retirable (s.tables.entry i).state = false then some .state
    else if (s.tables.entry i).aliases ≠ [] ∧ casc = false then some .referenced
    else none

/-- DONE where the retirement freed the record, ACCEPTED where it drains (R90). -/
def revokeStatus (T : Tables) (i : Index) : AnswerStatus :=
  if (T.entry i).state = .free then .done else .accepted

/-- The retirement of a REVOKE, and its answer with the handle (R88, R90). -/
def revokeOn (s : State) (i : Index) (g : Generation) (casc brk : Bool) : State :=
  let s1 := s.onTables fun T => T.retire casc brk i
  s1.answer (revokeStatus s1.tables i) (handleBytes i g)

/-- REVOKE (R88). -/
def acceptRevoke (s : State) (a : RevokeArgs) : State :=
  match indexOf a.index, revokeFlags a.flags with
  | some i, some (casc, brk) =>
    match s.revokeRefusal i a.generation casc with
    | some st => s.refuse st
    | none => s.revokeOn i a.generation casc brk
  | _, _ => s.refuse .badArgument

/-! ## QUERY (R94) -/

/-- A QUERY reads the body of a record in these states (R94). -/
def queryReads : RecState → Bool
  | .live | .suspended | .damaged => true
  | .free | .pending | .draining => false

/-- QUERY (R94). Index 0 reads as FREE at generation 0 (R1). -/
def acceptQuery (s : State) (a : QueryArgs) : State :=
  match indexOf a.index with
  | none => s.refuse .badArgument
  | some i =>
    let e := s.tables.entry i
    if queryReads e.state then s.askEngine (.bodyRead i e.generation .engine)
    else s.answer .done (queryBytes i e none)

/-! ## FETCH_NOTICE (R114, R115) -/

/-- What the fetch of a subject clears; a parked record joins the free-list tail (R115). -/
def clearSubject (T : Tables) : Subject → Tables
  | .record i =>
    let T1 := T.modEntry i fun e => { e with reasons := .empty, noticeGen := none }
    if (T.entry i).state = .free then { T1 with freeList := T1.freeList ++ [i] } else T1
  | .port p => { T with portNotices := place T.portNotices p ⟨false, false, none⟩ }
  | .domain d => { T with domainClosed := place T.domainClosed d false }
  | .bank b => { T with bankLoss := place T.bankLoss b false }

/-- FETCH_NOTICE (R114). -/
def acceptFetchNotice (s : State) : State :=
  match s.tables.notices with
  | [] => s.answer .emptyList []
  | x :: rest =>
    (s.onTables fun T => clearSubject { T with notices := rest } x).answer .done
      (noticeBytes s.tables x rest.length)

/-! ## TABLE_RESET (R185) -/

/-- Every deadline becomes absent (R185 step 3). -/
def dropDeadlines (T : Tables) : Tables :=
  (T.rst.map Prod.fst).foldl
    (fun T k => T.modEntry (Fin.ofNat 4096 k) fun e => { e with deadline := none }) T

/-- The subject is a record. -/
def isRecordSubject : Subject → Bool
  | .record _ => true
  | .port _ | .domain _ | .bank _ => false

/-- Domains 0 to 14 become CLOSED with quota equal to count (R185 step 5). -/
def closeDomains (T : Tables) : Tables :=
  ordinaryDomains.foldl
    (fun T d => T.setDomain d ⟨.closed, (T.domain d).count, (T.domain d).count⟩) T

/-- Steps 2 to 5 of the beginning claim on the tables (R185). -/
def beginClearing (T : Tables) : Tables :=
  let T1 := T.breakAll .tableReset none (T.heldWhere fun _ _ _ => true)
  let T2 := dropDeadlines { T1 with expiryQueue := [] }
  let T3 : Tables :=
    { T2 with
      notices := T2.notices.filter isRecordSubject
      portNotices := Vector.replicate 8 ⟨false, false, none⟩
      domainClosed := Vector.replicate 16 false
      bankLoss := Vector.replicate 16 false }
  closeDomains T3

/-- TABLE_RESET (R185): its acceptance claim is the beginning claim; the answer comes at the walk's end. -/
def acceptTableReset (s : State) : State :=
  let s1 := (s.onTables beginClearing).setEnginePhase .walking
  { s1 with partState := .clearing, sweep := none, clearWalk := some 1 }

/-! ## The hand-over (R74, R177, R179) -/

/-- The acceptance claim of a request the engine holds. -/
def accept (s : State) : Request → State
  | .info => s.acceptInfo
  | .status => s.acceptStatus
  | .configure a => s.acceptConfigure a
  | .bindPort a => s.acceptBindPort a
  | .unbindPort a => s.acceptUnbindPort a
  | .portReset a => s.acceptPortReset a
  | .openDomain a => s.acceptOpenDomain a
  | .setQuota a => s.acceptSetQuota a
  | .closeDomain a => s.acceptCloseDomain a
  | .establishData a => s.acceptEstablishData a
  | .establishAlias a => s.acceptEstablishAlias a
  | .amend a => s.acceptAmend a
  | .suspend a => s.acceptSuspend a
  | .resume a => s.acceptResume a
  | .revoke a => s.acceptRevoke a
  | .query a => s.acceptQuery a
  | .fetchNotice => s.acceptFetchNotice
  | .tableReset => s.acceptTableReset

/-- A request is handed to the engine: the interface becomes WORKING, the engine begins its progress
record, and the acceptance claim is taken (R74, R177). -/
def handOver (s : State) (r : Request) : State :=
  accept { s with iface := .working, engine := some ⟨r, .checking, none, [], none⟩ } r

/-! ## Completions of the engine's reads (R80, R84, R95) -/

/-- A damage claim of the read of record `t` at generation `g`, where its check code disagreed. -/
def readClaim (s : State) (t : Index) (g : Generation) (r : ReadResult) : State :=
  if r.agreed then s else s.onTables fun T => T.damageClaim t g

/-- The PENDING record of an establish, `i` at generation `g`, becomes FREE (R10). A record that is not PENDING
at that generation, which no run meets, is left alone (log entry 23). -/
def freeTaken (s : State) (i : Index) (g : Generation) : State :=
  if (s.tables.entry i).state = .pending ∧ (s.tables.entry i).generation = g then
    s.onTables fun T => Tables.becomeFree none T i
  else s

/-- The alias fits inside its target (R5, R80): its range, and its rights. -/
def aliasFits (a : AliasBody) (target : Body) : Bool :=
  decide (a.offset.toNat + a.extent.toNat ≤ target.extent.toNat) && a.rights.subset target.rights

/-- The target read of an alias establish completes (R80). `i` at `g` is the PENDING alias, `t` at `tg`
the target read. -/
def establishTargetRead (s : State) (i : Index) (g : Generation) (body : AliasBody)
    (t : Index) (tg : Generation) (r : ReadResult) : State :=
  if usable s.tables t = false then ((s.freeTaken i g).refuse .revoked).readClaim t tg r
  else if r.agreed = false then ((s.readClaim t tg r).freeTaken i g).refuse .damaged
  else if aliasFits body r.body = false then (s.freeTaken i g).refuse .badArgument
  else s.askEngine (.bodyWrite i g (.aliasBody body))

/-- The target read of an alias amend completes (R84). A target in any other state than DAMAGED or
DRAINING goes on (log entry 21). `g` is the handle's generation, found at acceptance; that the AMEND job carries
it, and not the alias's generation as it stands in this claim, is the model's choice (log entry 32). -/
def amendTargetRead (s : State) (i : Index) (g : Generation) (c : AmendChanges) (force : Bool)
    (t : Index) (tg : Generation) (r : ReadResult) : State :=
  if (s.tables.entry t).state = .damaged then (s.refuse .damaged).readClaim t tg r
  else if (s.tables.entry t).state = .draining then (s.refuse .state).readClaim t tg r
  else if r.agreed = false then (s.readClaim t tg r).refuse .damaged
  else (s.setTargetExtent r.body.extent).askEngine (.amendJob i g c force)

/-- The body read of a QUERY completes (R95). -/
def queryRead (s : State) (i : Index) (g : Generation) (r : ReadResult) : State :=
  if (s.tables.entry i).generation ≠ g then s.answer .done (queryBytes i (s.tables.entry i) none)
  else if (s.tables.entry i).state = .damaged then
    let s1 := s.readClaim i g r
    s1.answer .damaged (queryBytes i (s1.tables.entry i) (some r))
  else if r.agreed then s.answer .done (queryBytes i (s.tables.entry i) (some r))
  else
    let s1 := s.readClaim i g r
    s1.answer .damaged (queryBytes i (s1.tables.entry i) (some r))

/-- The engine takes the result of its BODY_READ of `t` at `tg` (R147). -/
def engineTakesRead (s : State) (t : Index) (tg : Generation) (r : ReadResult) : State :=
  let s1 := s.setJobResult (.read r)
  match s.engine with
  | none => s1
  | some e =>
    match e.request with
    | .establishAlias a =>
      match e.taken, establishAliasOf a with
      | some (i, g), some (_, _, body, _) => s1.establishTargetRead i g body t tg r
      | _, _ => s1
    | .amend a =>
      match indexOf a.index, flagOf a.force, changesOf a with
      | some i, some force, some c => s1.amendTargetRead i a.generation c force t tg r
      | _, _, _ => s1
    | .query _ => s1.queryRead t tg r
    | _ => s1

/-! ## Completion of the engine's write (R9, R78, R81) -/

/-- The PENDING record becomes LIVE, takes its deadline if one was given, and the agent is answered DONE
with its handle (R78). -/
def becomeLive (s : State) (i : Index) (g : Generation) (dl : Option Epoch) : State :=
  let s1 := s.setRecState i .live
  let s2 := match dl with
    | some d => s1.onTables fun T => T.enterQueue i d
    | none => s1
  s2.answer .done (handleBytes i g)

/-- The target of an alias is LIVE or SUSPENDED with the generation named in the request (R81). -/
def targetStands (T : Tables) (t : Index) (g : Generation) : Bool :=
  usable T t && decide ((T.entry t).generation = g)

/-- The claim of R9 at the completion of the BODY_WRITE of `i` at `g`. A record that is not PENDING at
that generation, which no run meets, is left alone (log entry 23). -/
def engineTakesWrite (s : State) (i : Index) (g : Generation) : State :=
  let s1 := s.setJobResult .wrote
  if (s.tables.entry i).state ≠ .pending ∨ (s.tables.entry i).generation ≠ g then s1
  else
    match s.engine with
    | none => s1
    | some e =>
      match e.request with
      | .establishData a =>
        match establishDataOf a with
        | some (_, _, dl) => s1.becomeLive i g dl
        | none => s1
      | .establishAlias a =>
        match establishAliasOf a with
        | some (_, t, _, dl) =>
          if targetStands s1.tables t a.targetGeneration then s1.becomeLive i g dl
          else (s1.freeTaken i g).refuse .revoked
        | none => s1
      | _ => s1

/-! ## The AMEND job's decision (R65, R85, R86) -/

/-- The old body with each given change in place (R85). -/
def amendedBody (c : AmendChanges) : Body → Body
  | .dataBody d =>
    .dataBody { d with
      rights := c.rights.getD d.rights, sharing := c.sharing.getD d.sharing,
      floor := c.floor.getD d.floor, extent := c.extent.getD d.extent, tag := c.tag.getD d.tag }
  | .aliasBody a =>
    .aliasBody { a with
      rights := c.rights.getD a.rights, floor := c.floor.getD a.floor,
      extent := c.extent.getD a.extent, tag := c.tag.getD a.tag }

/-- Step 4 of R85: the new body is in bounds. `te` is the target extent carried. -/
def amendInBounds (c : AmendChanges) (te : Option (BitVec 40)) : Body → Bool
  | .dataBody d => decide (d.base.toNat + (c.extent.getD d.extent).toNat ≤ 2 ^ 48)
  | .aliasBody a =>
    match c.extent with
    | none => true
    | some x => te.any fun te => decide (a.offset.toNat + x.toNat ≤ te.toNat)

/-- A hold resting on record `i` conflicts by itself with the new body (R65): a hold that names `i` by
clearance, range or access; a hold that reaches `i` through an alias by access alone. -/
def conflictsAlone (i : Index) (b : Body) (h : HeldHold) : Bool :=
  !b.rights.has h.access ||
    (decide (h.index = i) &&
      (decide (h.clearance < b.floor) ||
        decide (b.extent.toNat < h.offset.toNat + h.length.toNat)))

/-- The entry is a WRITE hold on the DATA record `i`, direct or through an alias, that does not conflict by
itself. -/
def keepable (T : Tables) (i : Index) (b : Body) (x : PortId × Token) : Bool :=
  match T.hold x.1 x.2 with
  | .held h => (h.resolved == i) && decide (h.access = .write) && !conflictsAlone i b h
  | .empty | .reserved | .broken _ _ => false

/-- The writing hold that is kept where the new sharing is SOLE: the oldest in the fill order (R65). -/
def keptWriter (T : Tables) (i : Index) (b : Body) : Option (PortId × Token) :=
  T.fillOrder.find? (keepable T i b)

/-- A hold conflicts with the new body (R65). -/
def conflicts (T : Tables) (i : Index) (b : Body) (p : PortId) (t : Token) (h : HeldHold) : Bool :=
  Tables.restsOn i h &&
    (conflictsAlone i b h ||
      (decide (b.sharing = .sole) && decide (h.access = .write) &&
        decide (keptWriter T i b ≠ some (p, t))))

/-- The conflicting holds, in ascending order of port and token (R65). -/
def conflictingHolds (T : Tables) (i : Index) (b : Body) : List (PortId × Token) :=
  T.heldWhere (conflicts T i b)

/-- The writer after an AMEND writes (R53, R65): that of the kept writing hold where the new sharing is
SOLE, absent where it is SHARED. An ALIAS record has no writer. -/
def amendWriter (T : Tables) (i : Index) (b : Body) : Tables :=
  match b with
  | .dataBody d =>
    match d.sharing with
    | .sole => T.setWriter i ((keptWriter T i b).map Prod.fst)
    | .shared => T.setWriter i none
  | .aliasBody _ => T

/-- The answer that refuses an AMEND job (R85 steps 1 to 5). -/
def amendJobRefusal (s : State) (i : Index) (g : Generation) (c : AmendChanges) (force : Bool)
    (r : ReadResult) : Option AnswerStatus :=
  if (s.tables.entry i).state = .free ∨ (s.tables.entry i).generation ≠ g then some .stale
  else if usable s.tables i = false then some .state
  else if r.agreed = false then some .damaged
  else if amendInBounds c (s.engine.bind Progress.targetExtent) r.body = false then some .badArgument
  else if conflictingHolds s.tables i (amendedBody c r.body) ≠ [] ∧ force = false then some .conflict
  else none

/-- What a passing AMEND does to the tables (R86 steps 1, 3 and 4). -/
def amendTables (T : Tables) (i : Index) (c : AmendChanges) (b : Body) : Tables :=
  let T1 := T.breakAll .amended none (conflictingHolds T i b)
  (amendWriter T1 i b).applyDeadline i c.deadline

/-- A refused AMEND job is answered, and then makes the damage claim of its read (R85). -/
def amendRefused (s : State) (i : Index) (g : Generation) (st : AnswerStatus) (r : ReadResult) : State :=
  ((s.setJobResult (.amended st)).refuse st).readClaim i g r

/-- A passing AMEND: breaks, the new body written, the writer, the deadline (R86). The answer DONE formed here is
placed at the end of the write half (R149); that it is kept until then as the job's result, which R74 gives the
progress record once the job has completed, is the model's choice (log entry 33). -/
def amendWritten (s : State) (i : Index) (c : AmendChanges) (r : ReadResult) : State :=
  let b := amendedBody c r.body
  ((s.onTables fun T => amendTables T i c b).writeCell i (.stored b.sealed)).setJobResult (.amended .done)

end State

end Sys2Proof.Machine
end

