-- ==== Sys2Proof/Machine/Banks.lean ====
section
/-! DEFINITION. The events of the Record Store's banks (chapter 8): service, completion, admission, refresh
and retention loss. An event that cannot happen in a state changes nothing there (log entry 3). -/

namespace Sys2Proof.Machine

namespace State

/-- The choice point of a bank selects a refresh. -/
def choosesRefresh (k : Bank) : Bool :=
  match choiceOf k with
  | .refresh | .urgentRun => true
  | .serve | .rest => false

/-- The choice point of an idle bank selects the head job (R144, R146; log entry 4). -/
def startService (s : State) (b : BankId) : State :=
  let k := s.bank b
  if isIdle k.controller ∧ choiceOf k = .serve then s.choicePoint b else s

/-- The choice point of an idle bank selects a refresh (R144, R156; log entry 4). -/
def startRefresh (s : State) (b : BankId) : State :=
  let k := s.bank b
  if isIdle k.controller ∧ choosesRefresh k then s.choicePoint b else s

/-- The issuer of a body read takes its result (R147). -/
def issuerTakes (s : State) (i : Index) (g : Generation) (issuer : Issuer) (r : ReadResult) : State :=
  match issuer with
  | .slot p t => s.slotTakes p t r
  | .engine => s.engineTakesRead i g r

/-- The completion claim of a BODY_READ at the head of a BUSY bank's queue (R146, R147). -/
def completeRead (s : State) (b : BankId) (upset : Option StoredBody) : State :=
  let k := s.bank b
  match k.controller, k.queue with
  | .busy, .bodyRead i g issuer :: _ =>
    let s1 := s.decay i upset
    ((s1.leaveHead b).issuerTakes i g issuer (s1.readBody i)).choicePoint b
  | _, _ => s

/-- The completion claim of a BODY_WRITE at the head of a BUSY bank's queue (R146, R148). -/
def completeWrite (s : State) (b : BankId) : State :=
  let k := s.bank b
  match k.controller, k.queue with
  | .busy, .bodyWrite i g body :: _ =>
    (((s.writeCell i (.stored body.sealed)).leaveHead b).engineTakesWrite i g).choicePoint b
  | _, _ => s

/-- The write half of an AMEND job begins; the job stays at the head (R149). -/
def enterWriteHalf (s : State) (b : BankId) : State := s.setBank b { s.bank b with writeHalf := true }

/-- The decision claim of an AMEND job at the end of its read half (R85, R86, R149). A refusal is also the
job's completion claim; a passing AMEND goes on to its write half. -/
def endReadHalf (s : State) (b : BankId) (upset : Option StoredBody) : State :=
  let k := s.bank b
  match k.controller, k.writeHalf, k.queue with
  | .busy, false, .amendJob i g c force :: _ =>
    let s1 := s.decay i upset
    let r := s1.readBody i
    match s1.amendJobRefusal i g c force r with
    | some st => ((s1.leaveHead b).amendRefused i g st r).choicePoint b
    | none => (s1.amendWritten i c r).enterWriteHalf b
  | _, _, _ => s

/-- The completion claim of a written AMEND job (R86, R149). -/
def completeAmend (s : State) (b : BankId) : State :=
  let k := s.bank b
  match k.controller, k.writeHalf, k.queue with
  | .busy, true, .amendJob _ _ _ _ :: _ => ((s.leaveHead b).answer .done []).choicePoint b
  | _, _, _ => s

/-- A claimant waits at the bank (R142). -/
def claimantWaits (k : Bank) : Bool := k.engineWaiting.isSome || (nextPort k).isSome

/-- A free place is granted to a waiting claimant (R153); at an idle bank the job that joins is a choice
point (R143; log entry 4). -/
def admitWaiting (s : State) (b : BankId) : State :=
  let k := s.bank b
  if k.queue.length < Config.queuePlaces ∧ claimantWaits k = true then
    if isIdle k.controller then (s.grant b).choicePoint b else s.grant b
  else s

/-- A refresh tick (R155). The tick timers do not run while RESET_N is asserted. -/
def refreshTick (s : State) (b : BankId) : State :=
  if s.resetAsserted then s else s.takeRefreshTick b

/-- A refresh tick in the case that loses the pointer page (R159, R160; log entry 5). -/
def retentionLoss (s : State) (b : BankId) : State :=
  let k := s.bank b
  if s.resetAsserted = false ∧ k.debt = Config.maxDebt ∧ pointerOpen k = false then s.missedRefresh b
  else s

/-- The end of a refresh in progress (R156). -/
def finishRefresh (s : State) (b : BankId) : State :=
  match (s.bank b).controller with
  | .refreshing => s.endRefresh b
  | .idleClosed | .idleOpen | .busy => s

end State

/-! ## The commands -/

/-- JOB_SERVICE_START (R146). -/
def execJobServiceStart (b : BankId) (s : State) : Host.Outcome State Fault Refusal :=
  .next (s.startService b)

/-- BODY_READ_COMPLETION (R147). -/
def execBodyReadCompletion (b : BankId) (upset : Option StoredBody) (s : State) :
    Host.Outcome State Fault Refusal :=
  .next (s.completeRead b upset)

/-- BODY_WRITE_COMPLETION (R148). -/
def execBodyWriteCompletion (b : BankId) (s : State) : Host.Outcome State Fault Refusal :=
  .next (s.completeWrite b)

/-- AMEND_READ_HALF_END (R149). -/
def execAmendReadHalfEnd (b : BankId) (upset : Option StoredBody) (s : State) :
    Host.Outcome State Fault Refusal :=
  .next (s.endReadHalf b upset)

/-- AMEND_JOB_COMPLETION (R149). -/
def execAmendJobCompletion (b : BankId) (s : State) : Host.Outcome State Fault Refusal :=
  .next (s.completeAmend b)

/-- ADMISSION_GRANT (R153). -/
def execAdmissionGrant (b : BankId) (s : State) : Host.Outcome State Fault Refusal :=
  .next (s.admitWaiting b)

/-- REFRESH_TICK (R155). -/
def execRefreshTick (b : BankId) (s : State) : Host.Outcome State Fault Refusal :=
  .next (s.refreshTick b)

/-- REFRESH_START (R156). -/
def execRefreshStart (b : BankId) (s : State) : Host.Outcome State Fault Refusal :=
  .next (s.startRefresh b)

/-- REFRESH_END (R156). -/
def execRefreshEnd (b : BankId) (s : State) : Host.Outcome State Fault Refusal :=
  .next (s.finishRefresh b)

/-- RETENTION_LOSS (R160). -/
def execRetentionLoss (b : BankId) (s : State) : Host.Outcome State Fault Refusal :=
  .next (s.retentionLoss b)

end Sys2Proof.Machine
end

