-- ==== Sys2Proof/Machine/Link.lean ====
section
/-! DEFINITION. The check links (chapter 9): the receiver, the tests of an arriving frame, the transmitter,
and the commands that come from a link. -/

namespace Sys2Proof.Machine

namespace State

/-! ## Arrival (R164, R166, R167) -/

/-- Step 1 of R164: the frame is whole and its CRC-16 agrees. A short frame has fewer than 16 bytes. -/
def frameChecks (l : List Byte) : Bool :=
  decide (l.length = 16 ∧ wordAt l 14 = crc16 (l.take 14))

/-- Step 2: the kind is PROBE, HOLD or RELEASE. -/
def kindKnown (l : List Byte) : Bool := (checkKindOf (byteAt l 0)).isSome || decide (byteAt l 0 = 3)

/-- Step 3: the access of a PROBE or HOLD is READ or WRITE. -/
def accessKnown (l : List Byte) : Bool :=
  decide (byteAt l 0 = 3) || (accessOf (byteAt l 7)).isSome

/-- The fault of an arriving frame: the first test of R164 that fails. -/
def arrivalFault (s : State) (p : PortId) (l : List Byte) : Option FenceCause :=
  if frameChecks l = false then some .frameCheck
  else if kindKnown l = false then some .unknownKind
  else if accessKnown l = false then some .unknownKind
  else if s.outstanding p (frameTag l) = true then some .duplicateTag
  else none

/-- A frame that passes every test is handed on in its acceptance claim (R166): a CHECK to the Check
Engine, a RELEASE to the Hold Unit. -/
def acceptFrame (s : State) (p : PortId) (l : List Byte) : State :=
  match checkKindOf (byteAt l 0), accessOf (byteAt l 7) with
  | some k, some a => s.screen p (frameTag l) (checkRequest k a l)
  | _, _ => s.takeRelease p (frameTag l) (frameToken l)

/-- A frame, or a short frame, arrives (R164, R167, R171). On a RESETTING port it is discarded. -/
def takeFrame (s : State) (p : PortId) (l : List Byte) : State :=
  if (s.tables.port p).state = .resetting then s
  else
    match s.arrivalFault p l with
    | some c => s.onTables fun T => fence T p c
    | none => s.acceptFrame p l

/-! ## The receiver (R163) -/

def setReceiver (s : State) (p : PortId) (r : Receiver) : State :=
  { s with receivers := place s.receivers p r }

/-- One symbol on the inward lane (R163). A frame's bytes are counted by the length of their list. -/
def takeSymbol (p : PortId) (s : State) (y : Symbol) : State :=
  match pick s.receivers p, y with
  | .hunting, .start => s.setReceiver p (.receiving [])
  | .hunting, .data _ | .hunting, .idle | .hunting, .violation => s
  | .receiving l, .data b =>
    if l.length < 15 then s.setReceiver p (.receiving (l ++ [b]))
    else (s.setReceiver p .hunting).takeFrame p (l ++ [b])
  | .receiving l, .start => (s.setReceiver p (.receiving [])).takeFrame p l
  | .receiving l, .idle | .receiving l, .violation => (s.setReceiver p .hunting).takeFrame p l

/-- Symbols arrive on a lane, in order. While RESET_N is asserted the lane is ignored (R172). -/
def receive (s : State) (p : PortId) (l : List Symbol) : State :=
  if s.resetAsserted then s else l.foldl (takeSymbol p) s

/-! ## The transmitter (R169) -/

def setTransmitter (s : State) (p : PortId) (x : Transmitter) : State :=
  { s with transmitters := place s.transmitters p x }

/-- The entry of a BROKEN frame that begins to be sent records that its frame waits no more (R59, R169). -/
def frameSent (T : Tables) (p : PortId) : OutFrame → Tables
  | .answer _ _ => T
  | .broken t _ =>
    match T.hold p t with
    | .broken r _ => T.setHold p t (.broken r false)
    | .empty | .reserved | .held _ => T

/-- The frame at the head of the outbound queue begins to be sent (R169). -/
def sendHead (s : State) (p : PortId) : State :=
  match s.tables.queueOf p with
  | [] => s
  | f :: rest => (s.onTables fun T => frameSent (T.setQueue p rest) p f).setTransmitter p (.sending f.bytes)

/-- The symbols of a lane by its transmitter (R163): START and the sixteen bytes of a frame as data symbols,
IDLE between frames. -/
def laneSymbols : Transmitter → List Symbol
  | .idle => [.idle]
  | .sending bytes => frameSymbols bytes

/-- What the outward lane of link `p` carries (R163, R172): it is held at rest while RESET_N is asserted, and
otherwise carries its transmitter's symbols. An output, computed and not stored (log entry 17). -/
def outwardLane (s : State) (p : PortId) : Lane :=
  if s.resetAsserted then .rest else .symbols (laneSymbols (pick s.transmitters p))

/-- An IDLE transmitter begins to send (R169, log entry 20). -/
def startTransmission (s : State) (p : PortId) : State :=
  match pick s.transmitters p with
  | .idle => s.sendHead p
  | .sending _ => s

/-- The last symbol of a frame has been sent: the next frame begins, or IDLE symbols follow (R169). -/
def endTransmission (s : State) (p : PortId) : State :=
  match pick s.transmitters p with
  | .idle => s
  | .sending _ => (s.setTransmitter p .idle).sendHead p

end State

/-! ## The commands -/

/-- PROBE (R26). -/
def execProbe (p : PortId) (f : CheckFrame) (s : State) : Host.Outcome State Fault Refusal :=
  .next (s.receive p (frameSymbols (f.bytes .probe)))

/-- HOLD (R27). -/
def execHold (p : PortId) (f : CheckFrame) (s : State) : Host.Outcome State Fault Refusal :=
  .next (s.receive p (frameSymbols (f.bytes .hold)))

/-- RELEASE (R57). -/
def execRelease (p : PortId) (f : ReleaseFrame) (s : State) : Host.Outcome State Fault Refusal :=
  .next (s.receive p (frameSymbols f.bytes))

/-- PROTOCOL_FAULT (R167). -/
def execProtocolFault (p : PortId) (l : List Symbol) (s : State) : Host.Outcome State Fault Refusal :=
  .next (s.receive p l)

/-- TRANSMISSION_START (R169). -/
def execTransmissionStart (p : PortId) (s : State) : Host.Outcome State Fault Refusal :=
  .next (s.startTransmission p)

/-- TRANSMISSION_END (R169). -/
def execTransmissionEnd (p : PortId) (s : State) : Host.Outcome State Fault Refusal :=
  .next (s.endTransmission p)

end Sys2Proof.Machine
end

