-- ==== Sys2Proof/Machine/Management.lean ====
section
/-! DEFINITION. The management port (chapter 10): the status byte, write and read frames, and the commands
that come from the management agent. -/

namespace Sys2Proof.Machine

/-! ## Status bytes (R190) -/

/-- Interface state codes. -/
def IfaceState.code : IfaceState → Byte
  | .idle => 0x01
  | .working => 0x02
  | .answerReady => 0x03

/-- The status byte BUSY. -/
def busyByte : Byte := 0x04

/-- The status byte STARTING. -/
def startingByte : Byte := 0x05

/-- `n` fill bytes. -/
def fillBytes (n : Nat) : List Byte := List.replicate n 0

namespace State

/-- The status byte, formed at the start of a frame (R176). -/
def statusByte (s : State) : Byte :=
  if s.partState = .starting then startingByte
  else if s.refused then busyByte
  else s.iface.code

/-- The status byte has been shifted out, and `out` after it; the refused flag is cleared (R175). -/
def shiftOut (s : State) (out : List Byte) : State :=
  { s with msdo := s.statusByte :: out, refused := false }

/-! ## Write frames (R177) -/

/-- The request of a write frame, its bytes after the type byte, that passes the frame check: kind
defined, length right, exactly the argument and CRC bytes, CRC agreeing (R177). -/
def writeRequest (l : List Byte) : Option Request :=
  match l with
  | kind :: len :: rest =>
    match argLength kind with
    | none => none
    | some n =>
      if len.toNat = n ∧ rest.length = n + 2 ∧ wordAt rest n = crc16 (kind :: len :: rest.take n) then
        requestOf kind rest
      else none
  | [] | [_] => none

/-- The kind a FRAME_ERROR answer carries: the received kind if it was defined, else 00h (R190). -/
def errorKind (l : List Byte) : Byte :=
  match l with
  | kind :: _ => if (argLength kind).isSome then kind else 0
  | [] => 0

/-- A write frame taken in IDLE: handed to the engine, or answered FRAME_ERROR (R177). -/
def takeWrite (s : State) (l : List Byte) : State :=
  match writeRequest l with
  | some r => { s with requestBuffer := some l }.handOver r
  | none => { s with answerBuffer := some ⟨.frameError, errorKind l, []⟩, iface := .answerReady }

/-- A write frame, judged by the interface state at its start (R177). `l` are the bytes after its type. -/
def writeFrame (s : State) (l : List Byte) : State :=
  let s1 := s.shiftOut (fillBytes l.length)
  match s.iface with
  | .idle => s1.takeWrite l
  | .working | .answerReady => { s1 with refused := true }

/-! ## Read frames (R178) -/

/-- The answer as it is shifted out; nothing where none waits. -/
def answerOut (s : State) : List Byte :=
  match s.iface, s.answerBuffer with
  | .answerReady, some a => a.bytes
  | _, _ => []

/-- The answer is ended: the buffer is emptied and the interface becomes IDLE (R178). -/
def endAnswer (s : State) : State := { s with answerBuffer := none, iface := .idle }

/-- A read frame with `n` byte times after its type byte (R178). The answer ends if the frame ran through
its last CRC byte. -/
def readFrame (s : State) (n : Nat) : State :=
  let out := s.answerOut
  let s1 := s.shiftOut ((out ++ fillBytes n).take n)
  if s.iface = .answerReady ∧ s.answerBuffer.isSome = true ∧ out.length ≤ n then s1.endAnswer else s1

/-! ## Any frame (R174, R176) -/

/-- A management frame of these bytes, type byte first (R174, R176). While RESET_N is asserted MSDO is at
high impedance. A frame of fewer than eight clocks is ignored. During STARTING, and for a type byte that is
neither WRITE nor READ, only the status byte and fill bytes are shifted out. -/
def managementFrame (s : State) (l : List Byte) : State :=
  match l with
  | [] => { s with msdo := [] }
  | type :: rest =>
    if s.resetAsserted then { s with msdo := [] }
    else if s.partState = .starting then s.shiftOut (fillBytes rest.length)
    else if type = writeType then s.writeFrame rest
    else if type = readType then s.readFrame rest.length
    else s.shiftOut (fillBytes rest.length)

end State

/-! ## The commands -/

/-- WRITE_FRAME_REFUSED (R177). -/
def execWriteFrameRefused (l : List Byte) (s : State) : Host.Outcome State Fault Refusal :=
  .next (s.managementFrame l)

/-- READ_FRAME (R178). -/
def execReadFrame (n : Nat) (s : State) : Host.Outcome State Fault Refusal :=
  .next (s.managementFrame (readType :: fillBytes n))

/-- INFO (R182). -/
def execInfo (s : State) : Host.Outcome State Fault Refusal :=
  .next (s.managementFrame (requestFrame .info))

/-- STATUS (R183). -/
def execStatus (s : State) : Host.Outcome State Fault Refusal :=
  .next (s.managementFrame (requestFrame .status))

/-- CONFIGURE (R184). -/
def execConfigure (a : ConfigureArgs) (s : State) : Host.Outcome State Fault Refusal :=
  .next (s.managementFrame (requestFrame (.configure a)))

/-- BIND_PORT (R132). -/
def execBindPort (a : BindPortArgs) (s : State) : Host.Outcome State Fault Refusal :=
  .next (s.managementFrame (requestFrame (.bindPort a)))

/-- UNBIND_PORT (R133). -/
def execUnbindPort (a : PortArgs) (s : State) : Host.Outcome State Fault Refusal :=
  .next (s.managementFrame (requestFrame (.unbindPort a)))

/-- PORT_RESET (R136). -/
def execPortReset (a : PortArgs) (s : State) : Host.Outcome State Fault Refusal :=
  .next (s.managementFrame (requestFrame (.portReset a)))

/-- OPEN_DOMAIN (R124). -/
def execOpenDomain (a : QuotaArgs) (s : State) : Host.Outcome State Fault Refusal :=
  .next (s.managementFrame (requestFrame (.openDomain a)))

/-- SET_QUOTA (R125). -/
def execSetQuota (a : QuotaArgs) (s : State) : Host.Outcome State Fault Refusal :=
  .next (s.managementFrame (requestFrame (.setQuota a)))

/-- CLOSE_DOMAIN (R126). -/
def execCloseDomain (a : DomainArgs) (s : State) : Host.Outcome State Fault Refusal :=
  .next (s.managementFrame (requestFrame (.closeDomain a)))

/-- ESTABLISH_DATA (R77). -/
def execEstablishData (a : EstablishDataArgs) (s : State) : Host.Outcome State Fault Refusal :=
  .next (s.managementFrame (requestFrame (.establishData a)))

/-- ESTABLISH_ALIAS (R79). -/
def execEstablishAlias (a : EstablishAliasArgs) (s : State) : Host.Outcome State Fault Refusal :=
  .next (s.managementFrame (requestFrame (.establishAlias a)))

/-- AMEND (R82). -/
def execAmend (a : AmendArgs) (s : State) : Host.Outcome State Fault Refusal :=
  .next (s.managementFrame (requestFrame (.amend a)))

/-- SUSPEND (R87). -/
def execSuspend (a : HandleArgs) (s : State) : Host.Outcome State Fault Refusal :=
  .next (s.managementFrame (requestFrame (.suspend a)))

/-- RESUME (R87). -/
def execResume (a : HandleArgs) (s : State) : Host.Outcome State Fault Refusal :=
  .next (s.managementFrame (requestFrame (.resume a)))

/-- REVOKE (R88). -/
def execRevoke (a : RevokeArgs) (s : State) : Host.Outcome State Fault Refusal :=
  .next (s.managementFrame (requestFrame (.revoke a)))

/-- QUERY (R94). -/
def execQuery (a : QueryArgs) (s : State) : Host.Outcome State Fault Refusal :=
  .next (s.managementFrame (requestFrame (.query a)))

/-- FETCH_NOTICE (R114). -/
def execFetchNotice (s : State) : Host.Outcome State Fault Refusal :=
  .next (s.managementFrame (requestFrame .fetchNotice))

/-- TABLE_RESET (R185). -/
def execTableReset (s : State) : Host.Outcome State Fault Refusal :=
  .next (s.managementFrame (requestFrame .tableReset))

end Sys2Proof.Machine
end

