-- ==== Sys2Proof/Machine/Timers.lean ====
section
/-! DEFINITION. The epoch tick and the expiries it makes (chapter 5), hold timers (chapter 3), and the
completions that port resets and draining records reach (chapters 1 and 7). -/

namespace Sys2Proof.Machine

namespace State

/-! ## The epoch tick (R97, R98, R103) -/

/-- The epoch after a tick: one more, and 2^48 - 1 stays (R97). -/
def nextEpoch (e : Epoch) : Epoch := if e = BitVec.allOnes 48 then e else e + 1

/-- The head of the expiry queue has been reached by the epoch (R103 step 2). -/
def headDue (s : State) : Bool :=
  match s.tables.expiryQueue with
  | (d, _) :: _ => decide (d ≤ s.epoch)
  | [] => false

/-- The head record is expired (R104). An entry of a record that is neither LIVE nor SUSPENDED, which no
run has in the queue (R99), only leaves it (log entry 23). -/
def expireHead (s : State) : State :=
  match s.tables.expiryQueue with
  | (_, i) :: _ =>
    if (s.tables.entry i).state = .live ∨ (s.tables.entry i).state = .suspended then
      s.onTables fun T => T.expire i
    else s.onTables fun T => T.leaveQueue i
  | [] => s

/-- One step of the expiry pass: the head is expired if it is due and a pass is in progress (R103 step 2,
R104; log entry 6). -/
def expireDue (s : State) : State := if s.expiryPass = true ∧ s.headDue = true then s.expireHead else s

/-- The expiry pass: at most `n` expiries, head first. Each removes an entry, so the length of the queue
is enough. -/
def expiryPassSteps : Nat → State → State
  | 0, s => s
  | n + 1, s => expiryPassSteps n s.expireDue

/-- The epoch advances and the next interval begins at the period in force (R97, R98, R103 step 1). -/
def advanceEpoch (s : State) : State :=
  { s with epoch := nextEpoch s.epoch, tickInterval := some s.tickPeriod, expiryPass := true }

/-- An epoch tick (R103). No tick is taken while the tick timer does not run. -/
def epochTick (s : State) : State :=
  match s.tickInterval with
  | some _ =>
    let s1 := s.advanceEpoch
    { expiryPassSteps s1.tables.expiryQueue.length s1 with expiryPass := false }
  | none => s

/-! ## Hold timers (R60, R61) -/

/-- The hold timer of an entry expires (R61): a HELD entry is broken with reason TIMEOUT. Only a HELD
entry has a timer. -/
def holdTimerExpiry (s : State) (p : PortId) (t : Token) : State :=
  s.onTables fun T => T.breakHold .timeout none (p, t)

end State

/-! ## The commands -/

/-- EPOCH_TICK (R103). -/
def execEpochTick (s : State) : Host.Outcome State Fault Refusal := .next s.epochTick

/-- RECORD_EXPIRY (R104). -/
def execRecordExpiry (s : State) : Host.Outcome State Fault Refusal := .next s.expireDue

/-- HOLD_TIMER_EXPIRY (R61). -/
def execHoldTimerExpiry (p : PortId) (t : Token) (s : State) : Host.Outcome State Fault Refusal :=
  .next (s.holdTimerExpiry p t)

/-- PORT_RESET_COMPLETION (R138): a RESETTING port with no tag in its tag table. -/
def execPortResetCompletion (p : PortId) (s : State) : Host.Outcome State Fault Refusal :=
  .next (s.completeIfLast p)

/-- DRAINING_COMPLETION (R13): a DRAINING record with pins 0 and an empty alias list. -/
def execDrainingCompletion (i : Index) (s : State) : Host.Outcome State Fault Refusal :=
  .next (s.onTables fun T => Tables.testDraining none T i)

end Sys2Proof.Machine
end

