-- ==== Sys2Proof/Machine/Walks.lean ====
section
/-! DEFINITION. RESET_N and the start-up walk (R181), the domain close sweep (R128, R129) and the clearing
walk of TABLE_RESET (R186). -/

namespace Sys2Proof.Machine

namespace State

/-! ## RESET_N and start-up (R181) -/

/-- RESET_N is asserted: every block is in its reset state, and the body positions are undefined under a
new name (R161, R181). The commands that wait stay in their queue. -/
def assertReset (s : State) : State := State.heldInReset s.freeCount s.pending

/-- RESET_N is released: the start-up walk begins (R181). -/
def releaseReset (s : State) : State :=
  if s.resetAsserted then { s with resetAsserted := false, startWalk := true } else s

/-- The tables when the start-up walk has set every status entry and rebuilt the free list (R21, R181). -/
def walkedTables (T : Tables) : Tables :=
  { T with
    rst := []
    freeList := allUsable
    notices := T.notices.filter fun x => !isRecordSubject x }

/-- The claim that ends the start-up walk (R181). -/
def endStartUp (s : State) : State :=
  if s.startWalk then
    { s with
      startWalk := false
      tables := walkedTables s.tables
      partState := .ready
      tickInterval := some Config.defaultPeriod
      iface := .idle
      requestBuffer := none
      answerBuffer := none
      refused := false }
  else s

/-! ## The domain close sweep (R128, R129) -/

/-- The visit's action on the record at the cursor (R128). -/
def sweepRecord (T : Tables) (d : DomainId) (i : Index) : Tables :=
  if (T.entry i).domain = some d ∧ Tables.retirable (T.entry i).state = true then T.retire true true i
  else T

/-- The end of the sweep: CLOSED, quota 0, and the notice (R129). -/
def sweepEnd (T : Tables) (d : DomainId) : Tables :=
  (T.setDomain d { T.domain d with state := .closed, quota := 0 }).raiseClosed d

/-- The index of the last visit of either walk. -/
def lastIndex : Index := 4095

/-- One visit of the sweep (R128, R129). -/
def sweepVisit (s : State) : State :=
  match s.sweep with
  | none => s
  | some w =>
    let s1 := s.onTables fun T => sweepRecord T w.domain w.cursor
    if w.cursor = lastIndex then { s1.onTables fun T => sweepEnd T w.domain with sweep := none }
    else { s1 with sweep := some ⟨w.domain, w.cursor + 1⟩ }

/-! ## The clearing walk (R186) -/

/-- The count of a record's domain falls, and with it the quota of a domain 0 to 14 (R186). -/
def uncount (T : Tables) (d : Option DomainId) : Tables :=
  match d with
  | some d =>
    let T1 := T.countDown d
    if d = commonDomain then T1
    else T1.setDomain d { T1.domain d with quota := (T1.domain d).count }
  | none => T

/-- The RECORD subject of an index leaves the Notice List (R186 step 4). -/
def dropNotice (T : Tables) (i : Index) : Tables :=
  { T with notices := T.notices.filter fun x => x != .record i }

/-- An index is removed from the free list where it stands there, and appended at the tail. -/
def requeue (T : Tables) (i : Index) : Tables :=
  { T with freeList := T.freeList.filter (fun x => x != i) ++ [i] }

/-- An alias is freed in its target's visit; its generation waits for its own visit (R186 step 2). It is in no
expiry queue: the queue is empty during the walk (R107; log entry 23). -/
def clearAlias (T : Tables) (a : Index) : Tables :=
  let e := T.entry a
  let T1 := ((uncount T e.domain).leaveQueue a).setEntry a (.freeAt e.generation)
  let T2 := { dropNotice T1 a with freeList := T1.freeList ++ [a] }
  match e.target with
  | some t => T2.leaveTarget a t
  | none => T2

/-- Step 2 of a visit, on a record that is not FREE (R186). An alias leaves its target's list, and a DRAINING
target is not tested for completion then: step 4 of R15 names such a test and counts TABLE_RESET among the
ways to FREE, but the steps of R186 list none, and the target's own visit frees it (log entry 29). -/
def clearLinks (T : Tables) (i : Index) : Tables :=
  let e := T.entry i
  let T1 := match e.target with
    | some t => T.leaveTarget i t
    | none => T
  e.aliases.foldl clearAlias T1

/-- What one visit does to the tables (R186 steps 1 to 5). The record is in no expiry queue: the queue is empty
during the walk (R107; log entry 23). -/
def clearEntry (T : Tables) (i : Index) : Tables :=
  let e := T.entry i
  let T1 := if e.state = .free then T else clearLinks (uncount T e.domain) i
  let T2 := (T1.leaveQueue i).setEntry i (.freeAt (e.generation + 1))
  let T3 := if e.reasons.isEmpty then T2 else dropNotice T2 i
  requeue T3 i

/-- One visit of the clearing walk; the visit of index 4095 makes the part READY and answers (R186). -/
def clearingWalkVisit (s : State) : State :=
  match s.clearWalk with
  | none => s
  | some i =>
    let s1 := s.onTables fun T => clearEntry T i
    if i = lastIndex then { s1 with clearWalk := none, partState := .ready }.answer .done []
    else { s1 with clearWalk := some (i + 1) }

end State

/-! ## The commands -/

/-- RESET_N_ASSERT (R181). -/
def execResetNAssert (s : State) : Host.Outcome State Fault Refusal := .next s.assertReset

/-- RESET_N_RELEASE (R181). -/
def execResetNRelease (s : State) : Host.Outcome State Fault Refusal := .next s.releaseReset

/-- START_UP_WALK_END (R181). -/
def execStartUpWalkEnd (s : State) : Host.Outcome State Fault Refusal := .next s.endStartUp

/-- SWEEP_VISIT (R128). -/
def execSweepVisit (s : State) : Host.Outcome State Fault Refusal := .next s.sweepVisit

/-- CLEARING_WALK_VISIT (R186). -/
def execClearingWalkVisit (s : State) : Host.Outcome State Fault Refusal := .next s.clearingWalkVisit

end Sys2Proof.Machine
end

