-- ==== Sys2Proof/Machine/Dispatch.lean ====
section
/-! DEFINITION. The meaning of every command: one arm for each. -/

namespace Sys2Proof.Machine

def exec (i : Instr) (s : State) : Host.Outcome State Fault Refusal :=
  match i with
  | .resetNAssert => Sys2Proof.Machine.execResetNAssert s
  | .resetNRelease => Sys2Proof.Machine.execResetNRelease s
  | .startUpWalkEnd => Sys2Proof.Machine.execStartUpWalkEnd s
  | .probe p f => Sys2Proof.Machine.execProbe p f s
  | .hold p f => Sys2Proof.Machine.execHold p f s
  | .release p f => Sys2Proof.Machine.execRelease p f s
  | .protocolFault p l => Sys2Proof.Machine.execProtocolFault p l s
  | .transmissionStart p => Sys2Proof.Machine.execTransmissionStart p s
  | .transmissionEnd p => Sys2Proof.Machine.execTransmissionEnd p s
  | .writeFrameRefused l => Sys2Proof.Machine.execWriteFrameRefused l s
  | .readFrame n => Sys2Proof.Machine.execReadFrame n s
  | .info => Sys2Proof.Machine.execInfo s
  | .status => Sys2Proof.Machine.execStatus s
  | .configure a => Sys2Proof.Machine.execConfigure a s
  | .bindPort a => Sys2Proof.Machine.execBindPort a s
  | .unbindPort a => Sys2Proof.Machine.execUnbindPort a s
  | .portReset a => Sys2Proof.Machine.execPortReset a s
  | .openDomain a => Sys2Proof.Machine.execOpenDomain a s
  | .setQuota a => Sys2Proof.Machine.execSetQuota a s
  | .closeDomain a => Sys2Proof.Machine.execCloseDomain a s
  | .establishData a => Sys2Proof.Machine.execEstablishData a s
  | .establishAlias a => Sys2Proof.Machine.execEstablishAlias a s
  | .amend a => Sys2Proof.Machine.execAmend a s
  | .suspend a => Sys2Proof.Machine.execSuspend a s
  | .resume a => Sys2Proof.Machine.execResume a s
  | .revoke a => Sys2Proof.Machine.execRevoke a s
  | .query a => Sys2Proof.Machine.execQuery a s
  | .fetchNotice => Sys2Proof.Machine.execFetchNotice s
  | .tableReset => Sys2Proof.Machine.execTableReset s
  | .jobServiceStart b => Sys2Proof.Machine.execJobServiceStart b s
  | .bodyReadCompletion b u => Sys2Proof.Machine.execBodyReadCompletion b u s
  | .bodyWriteCompletion b => Sys2Proof.Machine.execBodyWriteCompletion b s
  | .amendReadHalfEnd b u => Sys2Proof.Machine.execAmendReadHalfEnd b u s
  | .amendJobCompletion b => Sys2Proof.Machine.execAmendJobCompletion b s
  | .admissionGrant b => Sys2Proof.Machine.execAdmissionGrant b s
  | .refreshTick b => Sys2Proof.Machine.execRefreshTick b s
  | .refreshStart b => Sys2Proof.Machine.execRefreshStart b s
  | .refreshEnd b => Sys2Proof.Machine.execRefreshEnd b s
  | .retentionLoss b => Sys2Proof.Machine.execRetentionLoss b s
  | .epochTick => Sys2Proof.Machine.execEpochTick s
  | .recordExpiry => Sys2Proof.Machine.execRecordExpiry s
  | .holdTimerExpiry p t => Sys2Proof.Machine.execHoldTimerExpiry p t s
  | .sweepVisit => Sys2Proof.Machine.execSweepVisit s
  | .clearingWalkVisit => Sys2Proof.Machine.execClearingWalkVisit s
  | .portResetCompletion p => Sys2Proof.Machine.execPortResetCompletion p s
  | .drainingCompletion k => Sys2Proof.Machine.execDrainingCompletion k s

end Sys2Proof.Machine
end

