-- ==== Sys2Proof/Safety.lean ====
section
/-! DEFINITION. What the statements speak of: when an interface or a link takes a frame, what a request's
frame leaves around the request's own effect, how a job joins and leaves a bank, in what order a check and an
AMEND are tested, and the laws that every step keeps. -/

namespace Sys2Proof

/-- The command that carries a request. -/
def Request.command : Request → Instr
  | .info => .info
  | .status => .status
  | .configure a => .configure a
  | .bindPort a => .bindPort a
  | .unbindPort a => .unbindPort a
  | .portReset a => .portReset a
  | .openDomain a => .openDomain a
  | .setQuota a => .setQuota a
  | .closeDomain a => .closeDomain a
  | .establishData a => .establishData a
  | .establishAlias a => .establishAlias a
  | .amend a => .amend a
  | .suspend a => .suspend a
  | .resume a => .resume a
  | .revoke a => .revoke a
  | .query a => .query a
  | .fetchNotice => .fetchNotice
  | .tableReset => .tableReset

end Sys2Proof

namespace Sys2Proof.Machine

/-- The command that brings a CHECK frame of kind `k`. -/
def checkCommand (k : CheckKind) (p : PortId) (f : CheckFrame) : Instr :=
  match k with
  | .probe => .probe p f
  | .hold => .hold p f

namespace State

/-! ## A management request and its frame (R175, R177, R179) -/

/-- The interface takes a write frame: RESET_N is released, start-up has ended, the interface is IDLE. -/
def listening (s : State) : Prop :=
  s.resetAsserted = false ∧ s.partState ≠ .starting ∧ s.iface = .idle

/-- The write frame of a request that is taken: the status byte and fill bytes are shifted out, the refused
flag is cleared, and the request buffer holds the frame. -/
def framed (s : State) (r : Request) : State :=
  { s with
    msdo := s.statusByte :: fillBytes ((requestArgs r).length + 4)
    refused := false
    requestBuffer := some (withCrc (requestBody r)) }

/-- The request has been answered in its acceptance claim; `s` has its effect on the rest. -/
def answered (s : State) (r : Request) (st : AnswerStatus) (content : List Byte) : State :=
  { s.framed r with
    iface := .answerReady
    answerBuffer := some ⟨st, requestKind r, content⟩
    engine := some ⟨r, .answered, none, [], none⟩ }

/-- The request is in progress in phase `ph`, with what it took from the free list and its jobs. -/
def inProgress (s : State) (r : Request) (ph : EnginePhase) (taken : Option (Index × Generation))
    (jobs : List EngineJob) : State :=
  { s.framed r with iface := .working, engine := some ⟨r, ph, taken, jobs, none⟩ }

/-! ## A link that takes frames (R163, R172) -/

/-- The receiver of link `p` waits for a frame, and RESET_N is released. -/
def hears (s : State) (p : PortId) : Prop :=
  s.resetAsserted = false ∧ pick s.receivers p = .hunting

/-- A frame placed at the tail of a port's outbound queue, and nothing else (R168). -/
def withFrame (s : State) (p : PortId) (f : OutFrame) : State :=
  { s with tables := s.tables.placeFrame p f }

/-- A claim has placed BROKEN frames of one reason at the tail of a queue, in ascending order of token, and
nothing else (R63, R168). -/
def BrokenInOrder (reason : BreakReason) (before after : List OutFrame) : Prop :=
  ∃ l : List Token, l.Pairwise (· < ·) ∧ after = before ++ l.map fun t => .broken t reason

/-- The tokens of port `p` whose entries are HELD and rest on record `i` (R49), ascending. -/
def restingTokens (T : Tables) (i : Index) (p : PortId) : List Token :=
  allTokens.filter fun t => match T.hold p t with
    | .held h => decide (h.index = i ∨ h.resolved = i)
    | .empty | .reserved | .broken _ _ => false

/-- An entry is HELD. -/
def isHeld : HoldEntry → Bool
  | .held _ => true
  | .empty | .reserved | .broken _ _ => false

/-- The tokens of port `p` whose entries are HELD, ascending. -/
def heldTokens (T : Tables) (p : PortId) : List Token :=
  allTokens.filter fun t => isHeld (T.hold p t)

/-- The tokens of port `p` whose holds end when record `i` is retired with break (R66, R89, R90), ascending: those
that rest on the record, and with cascade those that rest on an alias in its list which is retired too. -/
def retiredTokens (T : Tables) (casc : Bool) (i : Index) (p : PortId) : List Token :=
  allTokens.filter fun t => decide (t ∈ restingTokens T i p) ||
    (casc && (T.entry i).aliases.any fun a =>
      Tables.retirable (T.entry a).state && decide (t ∈ restingTokens T a p))

/-- The tokens of port `p` whose holds conflict with a new body of record `i` (R65), ascending. -/
def conflictTokens (T : Tables) (i : Index) (body : Body) (p : PortId) : List Token :=
  allTokens.filter fun t => decide ((p, t) ∈ conflictingHolds T i body)

/-- The tokens of port `p` whose holds rest on a LIVE, SUSPENDED or DRAINING record of a page that is lost (R67,
R160), ascending. -/
def lostTokens (T : Tables) (b : BankId) (page : PageNo) (p : PortId) : List Token :=
  allTokens.filter fun t => (pageIndices b page).any fun i =>
    match (T.entry i).state with
    | .live | .suspended | .draining => decide (t ∈ restingTokens T i p)
    | .free | .pending | .damaged => false

/-- From `T` to `T'` the holds of the tokens `ks p` of each port `p` are broken with one reason, and every other
entry stays (R63): each becomes BROKEN, and on an ACTIVE or FENCED port its frame is placed and recorded as
waiting, in the order of `ks p`. -/
def BreaksHolds (reason : BreakReason) (T T' : Tables) (ks : PortId → List Token) : Prop :=
  ∀ p, let sends := (T.port p).state = .active ∨ (T.port p).state = .fenced
    (∀ t, T'.hold p t = if t ∈ ks p then .broken reason (decide sends) else T.hold p t) ∧
      T'.queueOf p = T.queueOf p ++ if sends then (ks p).map (fun t => .broken t reason) else []

/-! ## A check at its decision (R31, R33 to R38) -/

/-- The tests that a check makes at every completion of a body read (R31), in their order: `n` is the named
record's index, `j` that of the DATA record concerned, and `agreed` says that every check code agreed. -/
def earlyDeny (s : State) (p : PortId) (x : CheckSlot) (n j : Index) (agreed : Bool) :
    Option DenyReason :=
  let e := s.tables.entry n
  if s.partState = .clearing then some .clearing
  else if ((s.tables.portDomain p).map fun d => (s.tables.domain d).state) ≠ some .opened then
    some .domainClosed
  else if e.state = .free ∨ e.state = .pending ∨ e.generation ≠ x.request.generation then some .stale
  else if e.domain ≠ some 15 ∧ (e.domain = none ∨ e.domain ≠ s.tables.portDomain p) then some .foreign
  else if e.state = .suspended then some .suspended
  else if e.state = .draining then some .revoked
  else if e.state = .damaged then some .damaged
  else if (s.tables.entry j).state = .suspended then some .suspended
  else if (s.tables.entry j).state = .draining then some .revoked
  else if (s.tables.entry j).state = .damaged then some .damaged
  else if (s.tables.entry j).state = .free ∨ (s.tables.entry j).state = .pending then some .stale
  else if agreed = false then some .damaged
  else none

/-- The tests of the decision in their order, for a check whose body reads all agreed: `n` is the named
record's index and `nb` its body, `j` the index of the DATA record concerned and `d` its body. For a direct
check `j` is `n` and `nb` is the body `d`. -/
def decisionTests (s : State) (p : PortId) (x : CheckSlot) (n : Index) (nb : Body) (j : Index)
    (d : DataBody) : Option DenyReason :=
  let e := s.tables.entry n
  let len := x.request.length.toNat
  if s.earlyDeny p x n j true ≠ none then s.earlyDeny p x n j true
  else if x.clearance < nb.floor then some .clearance
  else if len = 0 ∨ 4096 < len ∨ nb.extent.toNat < x.request.offset.toNat + len then some .range
  else if (nb.rights.has x.request.access && d.rights.has x.request.access) = false then some .rights
  else if x.request.kind = .hold ∧ (15 ≤ e.pins ∨ 15 ≤ (s.tables.entry j).pins) then some .pinLimit
  else if x.request.access = .write ∧ d.sharing = .sole ∧ (s.tables.entry j).writer ≠ none then
    some .contended
  else none

/-! ## An AMEND at its decision (R65) -/

/-- The entry is a WRITE hold that rests on the DATA record `i`, direct or through an alias, and would be
allowed again against the new body: its access is in the rights and, where it names `i`, its clearance reaches
the floor and its range lies in the extent. -/
def writesUnder (T : Tables) (i : Index) (body : Body) (x : PortId × Token) : Prop :=
  ∃ h, T.hold x.1 x.2 = .held h ∧ h.resolved = i ∧ h.access = .write ∧ body.rights.has .write = true ∧
    (h.index = i → body.floor ≤ h.clearance ∧ h.offset.toNat + h.length.toNat ≤ body.extent.toNat)

/-- The entry is the oldest such hold in the fill order (R51, R65). -/
def oldestWriter (T : Tables) (i : Index) (body : Body) (x : PortId × Token) : Prop :=
  writesUnder T i body x ∧
    ∃ older younger, T.fillOrder = older ++ x :: younger ∧ ∀ y ∈ older, ¬ writesUnder T i body y

/-- The writer that an AMEND leaves on the DATA record `i` (R53, R65, R86): with SOLE sharing the port of the
oldest such hold, absent where there is none; with SHARED sharing absent. -/
def WriterAfterAmend (T : Tables) (i : Index) (d : DataBody) (w : Option PortId) : Prop :=
  (d.sharing = .shared → w = none) ∧
    (d.sharing = .sole →
      (∀ x, oldestWriter T i (.dataBody d) x → w = some x.1) ∧
      ((∀ x, ¬ oldestWriter T i (.dataBody d) x) → w = none))

/-! ## The laws -/

/-- R110: a subject owes a notice when its reason set is not empty. -/
def owes (T : Tables) : Subject → Bool
  | .record i => !(T.entry i).reasons.isEmpty
  | .port p => !(T.portNotice p).isEmpty
  | .domain d => pick T.domainClosed d
  | .bank b => pick T.bankLoss b

/-- The law of the Notice List (R110): it holds exactly the subjects that owe, each once. -/
def NoticeLaw (s : State) : Prop :=
  s.tables.notices.Nodup ∧ ∀ x : Subject, x ∈ s.tables.notices ↔ owes s.tables x = true

/-- The sparse tables are in canonical form: the Record Status Table, whose keys are the indices 1 to 4095, the
body positions, and the page buffer of every bank. -/
def Canonical (s : State) : Prop :=
  Table.wf .blank s.tables.rst = true ∧ (∀ x ∈ s.tables.rst, 1 ≤ x.1 ∧ x.1 ≤ 4095) ∧ Table.wf s.blankCell s.storage = true ∧
    ∀ b op, (s.bank b).openPage = some op → Table.wf s.blankCell op.cells = true

/-- A page buffer that is not dirty agrees with storage at every position of its page (R142, R146). -/
def PagesClean (s : State) : Prop :=
  ∀ b op, (s.bank b).openPage = some op → op.dirty = false → ∀ i ∈ pageIndices b op.page,
    Table.get s.blankCell op.cells i.val = Table.get s.blankCell s.storage i.val

/-- The law of one bank (R142, R143, R151, R156). -/
def BankLaw (k : Bank) : Prop :=
  k.debt ≤ 8 ∧ k.queue.length ≤ 12 ∧
    match k.controller with
    | .idleClosed => k.openPage = none ∧ k.queue = [] ∧ k.debt = 0 ∧ k.urgent = false ∧
        k.underRefresh = none
    | .idleOpen => k.openPage.isSome = true ∧ k.queue = [] ∧ k.debt = 0 ∧ k.urgent = false ∧
        k.underRefresh = none
    | .busy => (∃ job rest, k.queue = job :: rest ∧
        k.openPage.map OpenPage.page = some (pageOf job.index)) ∧ k.urgent = false ∧
        k.underRefresh = none
    | .refreshing => k.openPage = none ∧ k.underRefresh.isSome = true

/-- Every bank keeps its law. -/
def BanksLaw (s : State) : Prop := ∀ b, BankLaw (s.bank b)

/-- The law of the part state (R180, R181, R185, R186). -/
def PartLaw (s : State) : Prop :=
  (s.partState = .starting ↔ s.startWalk = true ∨ s.resetAsserted = true) ∧
    (s.partState = .clearing ↔ s.clearWalk.isSome = true) ∧
    (s.startWalk = true → s.resetAsserted = false) ∧
    ∀ i, s.clearWalk = some i → i ≠ 0

/-- The law of the Domain Directory's states (R121, R126, R128): domain 15 is OPEN, and a domain is CLOSING
exactly while the sweep runs for it. -/
def DomainLaw (s : State) : Prop :=
  (s.tables.domain commonDomain).state = .opened ∧
    (∀ d, (s.tables.domain d).state = .closing ↔ s.sweep.map Sweep.domain = some d) ∧
    ∀ w, s.sweep = some w → w.cursor ≠ 0

/-- The law of reservations (R27, R54): an entry is RESERVED exactly while one request of its port has
reserved it. -/
def ReserveLaw (s : State) : Prop :=
  (∀ p t, s.tables.hold p t = .reserved ↔ ∃ g x, s.slot p g = some x ∧ x.token = some t) ∧
    ∀ p g g' x x' t, s.slot p g = some x → s.slot p g' = some x' → x.token = some t →
      x'.token = some t → g = g'

/-- The law of the fill order (R51): it lists every HELD entry, once. -/
def FillLaw (s : State) : Prop :=
  s.tables.fillOrder.Nodup ∧
    ∀ p t, (p, t) ∈ s.tables.fillOrder ↔ isHeld (s.tables.hold p t) = true

/-- The entry is BROKEN with its frame still waiting (R59). -/
def frameWaits : HoldEntry → Bool
  | .broken _ w => w
  | .empty | .reserved | .held _ => false

/-- The law of the outbound queues (R59, R165, R168): one waiting ANSWER at most for each tag, and none for
a tag in the tag table; one waiting BROKEN frame for each entry that records one, and no other. -/
def QueueLaw (s : State) : Prop :=
  ∀ p,
    (∀ g, ((s.tables.queueOf p).filter (answerOf g)).length +
      (if s.tagInTable p g = true then 1 else 0) ≤ 1) ∧
    ∀ t, ((s.tables.queueOf p).filter (Tables.brokenFrameOf t)).length =
      if frameWaits (s.tables.hold p t) = true then 1 else 0

/-- The laws of holds and links together, which each other's proofs need. -/
def LinkLaw (s : State) : Prop := ReserveLaw s ∧ FillLaw s ∧ QueueLaw s

/-! ## The laws of the records -/

/-- The fields of a status entry go with its state (R3, R8, R9, R14, R15): a FREE record has none; any other has
a domain and a kind, a target where it is an ALIAS, and then no alias list; a PENDING record has no alias, and
neither a PENDING nor a DAMAGED one a pin. The notice generation is present exactly while reasons are owed, and is
the generation of the life they belong to: the record's own, and one less while it is parked (R3, R112). -/
def EntryFits (e : StatusEntry) : Prop :=
  (e.state = .free → e.domain = none ∧ e.kind = none ∧ e.target = none ∧ e.aliases = [] ∧ e.pins = 0 ∧
    e.writer = none ∧ e.deadline = none) ∧
  (e.state ≠ .free → e.domain.isSome = true ∧
    ((e.kind = some .dataKind ∧ e.target = none) ∨
      (e.kind = some .aliasKind ∧ e.target.isSome = true ∧ e.aliases = []))) ∧
  (e.state = .pending → e.aliases = []) ∧
  (e.state = .pending ∨ e.state = .damaged → e.pins = 0) ∧
  e.noticeGen =
    if e.reasons = ⟨false, false, false, false⟩ then none
    else some (if e.state = .free then e.generation - 1 else e.generation)

/-- Every status entry fits. -/
def EntryLaw (T : Tables) : Prop := ∀ i, EntryFits (T.entry i)

/-- The law of the alias lists (R18): a record's list holds exactly the records whose target it is, each once,
at most 15. -/
def AliasLaw (T : Tables) : Prop :=
  (∀ i a, a ∈ (T.entry i).aliases ↔ (T.entry a).target = some i) ∧
    ∀ i, (T.entry i).aliases.Nodup ∧ (T.entry i).aliases.length ≤ 15

/-- The law of the free list (R16): it holds exactly the FREE indices other than 0 that owe no notice, each
once. -/
def FreeListLaw (T : Tables) : Prop :=
  T.freeList.Nodup ∧ ∀ i, i ∈ T.freeList ↔
    i ≠ 0 ∧ (T.entry i).state = .free ∧ (T.entry i).reasons = ⟨false, false, false, false⟩

/-- The number of indices that satisfy a test. -/
def indexCount (f : Index → Bool) : Nat := ((List.finRange 4096).filter f).length

/-- The law of the domain counts (R121, R122): a domain's count is the number of its records that are not
FREE. -/
def CountLaw (T : Tables) : Prop :=
  ∀ d, (T.domain d).count =
    indexCount fun i => decide ((T.entry i).state ≠ .free ∧ (T.entry i).domain = some d)

/-- The law of the expiry queue (R99): it holds exactly the records that have a deadline, each once and with
that deadline, in order of deadline; they are LIVE or SUSPENDED. -/
def ExpiryLaw (T : Tables) : Prop :=
  (∀ d i, (d, i) ∈ T.expiryQueue ↔ (T.entry i).deadline = some d) ∧
    (∀ i, (T.entry i).deadline ≠ none → (T.entry i).state = .live ∨ (T.entry i).state = .suspended) ∧
    (T.expiryQueue.map Prod.snd).Nodup ∧ (T.expiryQueue.map Prod.fst).Pairwise (· ≤ ·)

/-- The law of the pins (R52): a record's pins are the number of HELD entries that rest on it, at most 15. -/
def PinLaw (T : Tables) : Prop :=
  ∀ i, (T.entry i).pins = (allPorts.flatMap (restingTokens T i)).length ∧ (T.entry i).pins ≤ 15

/-- The law of the writer (R53): a record's writer is the port of a HELD entry with WRITE access that reaches
the record as its DATA record. -/
def WriterLaw (T : Tables) : Prop :=
  ∀ i p, (T.entry i).writer = some p →
    ∃ t h, T.hold p t = .held h ∧ h.access = .write ∧ h.resolved = i

/-- The law of the HELD entries (R56): the record that one names is LIVE, SUSPENDED or DRAINING at the generation
recorded in the entry, and the DATA record that it reaches is LIVE, SUSPENDED or DRAINING. -/
def HeldLaw (T : Tables) : Prop :=
  ∀ p t h, T.hold p t = .held h →
    (T.entry h.index).generation = h.generation ∧
      ∀ i, i = h.index ∨ i = h.resolved →
        (T.entry i).state = .live ∨ (T.entry i).state = .suspended ∨ (T.entry i).state = .draining

/-- The law of draining (R13): a DRAINING record has pins or a non-empty alias list. While the part is CLEARING it
need not (log entry 29). -/
def DrainingLaw (s : State) : Prop :=
  s.partState ≠ .clearing → ∀ i, (s.tables.entry i).state = .draining →
    0 < (s.tables.entry i).pins ∨ (s.tables.entry i).aliases ≠ []

/-- Only a HOLD reserves an entry (R27). -/
def ReservedByHold (s : State) : Prop :=
  ∀ p g x, s.slot p g = some x → x.token ≠ none → x.request.kind = .hold

/-- While the part is CLEARING no entry is HELD (R69). -/
def ClearingUnheld (s : State) : Prop :=
  s.partState = .clearing → ∀ p t, isHeld (s.tables.hold p t) = false

/-- Every record that the clearing walk has visited is FREE (R22, R186). -/
def ClearedLaw (s : State) : Prop :=
  ∀ c, s.clearWalk = some c → ∀ i < c, (s.tables.entry i).state = .free

/-- While the part is STARTING every status entry is as R21 has it (log entry 16). -/
def StartingBlank (s : State) : Prop :=
  s.partState = .starting → ∀ i, s.tables.entry i = .freeAt 0

/-- The job is one of the Management Engine's (R145). -/
def engineJob : Job → Bool
  | .bodyRead _ _ .engine | .bodyWrite _ _ _ | .amendJob _ _ _ _ => true
  | .bodyRead _ _ (.slot _ _) => false

/-- How many jobs of the Management Engine stand in a bank's queue or wait at it. -/
def engineJobs (k : Bank) : Nat :=
  (k.queue.filter engineJob).length + if k.engineWaiting.isSome = true then 1 else 0

/-- The law of the Management Engine (R74, R75, R179, R185): one of its jobs at most is queued or waits at all the
banks, and none while the interface is not WORKING or the part is not READY; while the part is CLEARING the
interface is WORKING and the engine executes the TABLE_RESET. -/
def EngineLaw (s : State) : Prop :=
  (allBanks.map fun b => engineJobs (s.bank b)).sum ≤
      (if s.iface = .working ∧ s.partState = .ready then 1 else 0) ∧
    (s.partState = .clearing →
      s.iface = .working ∧ ∃ e, s.engine = some e ∧ e.request = .tableReset)

/-- The laws of the records together, which each other's proofs need. -/
structure RecordLaws (s : State) : Prop where
  entries : EntryLaw s.tables
  aliases : AliasLaw s.tables
  freeList : FreeListLaw s.tables
  counts : CountLaw s.tables
  expiry : ExpiryLaw s.tables
  pins : PinLaw s.tables
  writers : WriterLaw s.tables
  held : HeldLaw s.tables
  draining : DrainingLaw s
  reserved : ReservedByHold s
  clearing : ClearingUnheld s
  cleared : ClearedLaw s
  starting : StartingBlank s

/-- Every law that the laws of the records lean on. -/
def AllLaws (s : State) : Prop := s.RecordLaws ∧ s.NoticeLaw ∧ s.LinkLaw ∧ s.PartLaw ∧ s.EngineLaw

/-! ## A retirement (R12, R66, R89, R90) -/

/-- From `T` to `T'` record `i` is retired, with cascade and with break as given. It is FREE or DRAINING, and in no
expiry queue. Without break no hold and no frame changes. With break the holds resting on it, and with cascade
those resting on the aliases retired with it, are BROKEN with reason REVOKED and no others; where pins kept their
law it has none left, and is FREE unless an alias is left in its list. With cascade each LIVE, SUSPENDED or DAMAGED
alias is FREE or DRAINING; with break, where no alias is in another state and the records kept their laws, the
record and every alias in its list are FREE at their next generations. -/
def Retires (casc brk : Bool) (i : Index) (T T' : Tables) : Prop :=
  ((T'.entry i).state = .free ∨ (T'.entry i).state = .draining) ∧
  (∀ x ∈ T'.expiryQueue, x.2 ≠ i) ∧
  (brk = false → T'.holds = T.holds ∧ T'.outbound = T.outbound) ∧
  (brk = true → BreaksHolds .revoked T T' (retiredTokens T casc i) ∧
    (PinLaw T → (T'.entry i).pins = 0 ∧
      ((T'.entry i).aliases = [] → (T'.entry i).state = .free))) ∧
  (casc = true → ∀ a ∈ (T.entry i).aliases,
    ((T.entry a).state = .live ∨ (T.entry a).state = .suspended ∨ (T.entry a).state = .damaged) →
    (T'.entry a).state = .free ∨ (T'.entry a).state = .draining) ∧
  (brk = true → casc = true ∨ (T.entry i).aliases = [] → EntryLaw T → AliasLaw T → PinLaw T →
    (∀ a ∈ (T.entry i).aliases,
      (T.entry a).state = .live ∨ (T.entry a).state = .suspended ∨ (T.entry a).state = .damaged) →
    ∀ j ∈ i :: (T.entry i).aliases,
      (T'.entry j).state = .free ∧ (T'.entry j).generation = (T.entry j).generation + 1)

/-! ## A job joins and leaves a bank (R143, R146, R151, R153) -/

/-- The bank `k` with a refresh begun on the page at its pointer (R156). -/
def refreshBegun (k : Bank) : Bank :=
  { k with
    controller := .refreshing
    openPage := none
    underRefresh := some k.pointer
    debt := k.debt - 1
    pointer := k.pointer + 1 }

/-- The choice point of bank `k` leaves `t` (R143). In an urgent run with debt left, and at debt 4 or more, a
refresh begins in an urgent run; else the head job is served, on its page, which stays as it was if it is the
open one and is not dirty otherwise (R146); else a refresh begins if the debt is above 0; else the bank rests. -/
def ChoiceMade (k t : Bank) : Prop :=
  if (k.urgent = true ∧ 0 < k.debt) ∨ 4 ≤ k.debt then t = { refreshBegun k with urgent := true }
  else
    match k.queue with
    | job :: _ => ∃ op : OpenPage, op.page = pageOf job.index ∧
        (∀ o, k.openPage = some o → o.page = op.page → op = o) ∧
        (k.openPage.map OpenPage.page ≠ some op.page → op.dirty = false) ∧
        t = { k with controller := .busy, openPage := some op, writeHalf := false }
    | [] =>
      if 0 < k.debt then t = refreshBegun k
      else t = { k with controller := if k.openPage = none then .idleClosed else .idleOpen }

/-- From `s` to `t` a job joins the tail of its bank's queue, which has a free place; at an idle bank that is a
choice point (R143, R151). No other bank changes, and no body position where clean pages agree with storage. -/
def JobJoins (s t : State) (job : Job) : Prop :=
  let k := { s.bank (bankOf job.index) with queue := (s.bank (bankOf job.index)).queue ++ [job] }
  (∀ b, b ≠ bankOf job.index → t.bank b = s.bank b) ∧
    (k.controller = .busy ∨ k.controller = .refreshing → t.bank (bankOf job.index) = k) ∧
    (k.controller = .idleClosed ∨ k.controller = .idleOpen →
      ChoiceMade k (t.bank (bankOf job.index))) ∧
    (s.PagesClean → ∀ i, t.cellAt i = s.cellAt i)

/-- A completion claim of bank `b` ends in `t`: the freed place has been granted (`u`), the bank has made its next
choice and no other bank has changed, and the rest is as in `t'`. No body position differs from `s` where clean
pages agree with storage (R146). -/
def JobEnds (s u t : State) (b : BankId) (t' : State) : Prop :=
  ChoiceMade (u.bank b) (t.bank b) ∧ (∀ b', b' ≠ b → t.bank b' = s.bank b') ∧
    (s.PagesClean → ∀ i, t.cellAt i = s.cellAt i) ∧
    t = { t' with banks := t.banks, storage := t.storage }

/-- In a completion claim of bank `b` whose freed place has been granted (`u`), a job asks for a place at its bank
and bank `b` makes its next choice (R146 steps 3 and 4, R152): it joins the tail where there is a free place, which
at another bank that is idle is a choice point; with 12 jobs in the queue its issuer waits there, as `waits`
records. No body position changes where clean pages agree with storage. -/
def JobAsked (u t : State) (b : BankId) (job : Job) (waits : Bank → Bank) : Prop :=
  let c := bankOf job.index
  let room := (u.bank c).queue.length < 12
  let k := if room then { u.bank c with queue := (u.bank c).queue ++ [job] } else waits (u.bank c)
  let idle := (u.bank c).controller = .idleClosed ∨ (u.bank c).controller = .idleOpen
  (c = b → ChoiceMade k (t.bank b)) ∧
    (c ≠ b → ChoiceMade (u.bank b) (t.bank b) ∧
      (room ∧ idle → ChoiceMade k (t.bank c)) ∧ (¬(room ∧ idle) → t.bank c = k)) ∧
    (∀ b', b' ≠ b → b' ≠ c → t.bank b' = u.bank b') ∧
    (u.PagesClean → ∀ i, t.cellAt i = u.cellAt i)

/-- The job at the head of bank `b` has left the queue, which is now `rest`, and the place it frees has been
granted (R146 steps 1 and 2, R153): `u` is `s` so. The engine's waiting job comes first; with none, the longest
waiting slot of the first port with one, ascending from the port after the last granted and wrapping from 7 to
0; with no claimant, nobody. -/
def PlaceGranted (s u : State) (b : BankId) (rest : List Job) : Prop :=
  let k := { s.bank b with queue := rest, writeHalf := false }
  (∃ job, k.engineWaiting = some job ∧
    u = { s with
      banks := place s.banks b { k with engineWaiting := none, queue := rest ++ [job] }
      engine := s.engine.map fun (e : Progress) => { e with phase := .job } }) ∨
  (k.engineWaiting = none ∧ ∃ (n : Fin 8) (p : PortId) (g : Tag) (gs : List Tag) (x : CheckSlot)
      (r : ReadRecord),
    p = k.lastGranted + 1 + n ∧
    (∀ m : Fin 8, m < n → pick k.slotsWaiting (k.lastGranted + 1 + m) = []) ∧
    pick k.slotsWaiting p = g :: gs ∧ s.slot p g = some x ∧ r = x.targetRead.getD x.named ∧
    u = State.setSlot { s with
        banks := place s.banks b { k with
          slotsWaiting := place k.slotsWaiting p gs
          lastGranted := p
          queue := rest ++ [.bodyRead r.index r.generation (.slot p g)] } }
      p g (some { x with phase := .reading })) ∨
  (k.engineWaiting = none ∧ (∀ p, pick k.slotsWaiting p = []) ∧
    u = { s with banks := place s.banks b k })

end State

end Sys2Proof.Machine
end

