-- ==== Sys2Proof/Certificates/Slice0/Obligations.lean ====
section
/-! DEFINITION. The statements about the PV4816 model that are to be proved. -/

open Sys2Proof Sys2Proof.Machine Sys2Proof.Machine.State

/-! ## The queue of commands -/

/-- A step takes the command at the front of the queue and runs it on the rest; on an empty queue the block
idles (the model's choice, log entries 2 and 25). -/
def Obligations.StepTakesFront : Prop :=
  (∀ (c : Instr) (q : List Instr) (s : State),
    step { s with pending := c :: q } = exec c { s with pending := q }) ∧
  ∀ s : State, s.pending = [] → step s = .next s

/-! ## RESET_N and start-up (R21, R71, R108, R118, R139, R161, R172, R175, R181) -/

/-- What RESET_N leaves in every block, from any state, its outward lanes at rest. That the status entries hold
R21's values from the assertion on is the model's choice (log entry 16), and so are the name `s.freeCount` of the
value that every body position is undefined under, with the counters it comes from (log entry 7). -/
def Obligations.ResetAssertClears : Prop :=
  ∀ s : State, ∃ t, exec .resetNAssert s = .next t ∧
    t.resetAsserted = true ∧ t.partState = .starting ∧
    (∀ i, t.tables.entry i = .freeAt 0) ∧
    (∀ p, t.tables.port p = ⟨.unbound, none⟩) ∧
    (∀ d, t.tables.domain d = if d = 15 then ⟨.opened, 4095, 0⟩ else ⟨.closed, 0, 0⟩) ∧
    (∀ p k, t.tables.hold p k = .empty) ∧ t.tables.fillOrder = [] ∧
    t.tables.notices = [] ∧ (∀ x, owes t.tables x = false) ∧ t.alertEnable = false ∧
    t.alertAsserted = false ∧
    t.sweep = none ∧ t.clearWalk = none ∧
    t.epoch = 0 ∧ t.tickPeriod = 1000 ∧ t.tickInterval = none ∧ t.tables.expiryQueue = [] ∧
    (∀ p g, t.slot p g = none) ∧
    (∀ p, pick t.receivers p = .hunting ∧ pick t.transmitters p = .idle ∧ t.tables.queueOf p = [] ∧
      t.outwardLane p = .rest) ∧
    (∀ b, (t.bank b).controller = .idleClosed ∧ (t.bank b).openPage = none ∧ (t.bank b).queue = [] ∧
      (t.bank b).engineWaiting = none ∧ (∀ p, pick (t.bank b).slotsWaiting p = []) ∧
      (t.bank b).debt = 0 ∧ (t.bank b).pointer = 0 ∧ (t.bank b).urgent = false ∧
      (t.bank b).lastGranted = 7) ∧
    (∀ i, t.cellAt i = .undefined s.freeCount) ∧
    t.iface = .idle ∧ t.refused = false ∧ t.requestBuffer = none ∧ t.answerBuffer = none ∧
    t.engine = none ∧ t.pending = s.pending

/-- While RESET_N is asserted, every command but its release (and its assertion again) leaves every block in
its reset state. Only the record of the last bytes on MSDO can change (log entry 12). -/
def Obligations.ResetHeldStopsAll : Prop :=
  ∀ (c : Instr) (k : Nat) (q : List Instr) (m : List Byte),
    c ≠ .resetNRelease → c ≠ .resetNAssert →
    ∃ m', exec c { State.heldInReset k q with msdo := m } = .next { State.heldInReset k q with msdo := m' }

/-- The release of RESET_N begins the start-up walk and changes nothing else. The claim that ends the walk leaves
every status entry at the values of R21, the free list 1 to 4095 in ascending order, the part READY, the first
tick interval at 1,000 ms and the interface IDLE (R21, R98, R181). That the RECORD subjects leave the Notice List
with the entries' reasons is none of the changes R181 lists: it is the model's choice (log entry 16), and no run
has such a subject then. -/
def Obligations.StartUpRuns : Prop :=
  (∀ s : State,
      (s.resetAsserted = true →
        exec .resetNRelease s = .next { s with resetAsserted := false, startWalk := true }) ∧
      (s.resetAsserted = false → exec .resetNRelease s = .next s)) ∧
  (∀ s : State, s.startWalk = true → ∃ t, exec .startUpWalkEnd s = .next t ∧
      t.startWalk = false ∧ t.partState = .ready ∧ t.tickInterval = some 1000 ∧
      t.iface = .idle ∧ t.requestBuffer = none ∧ t.answerBuffer = none ∧ t.refused = false ∧
      (∀ i, t.tables.entry i = .freeAt 0) ∧
      t.tables.freeList.length = 4095 ∧
      (∀ (n : Nat) (h : n < 4095), t.tables.freeList[n]? = some ⟨n + 1, Nat.succ_lt_succ h⟩) ∧
      t.tables.notices = s.tables.notices.filter (fun x => !isRecordSubject x) ∧
      t = { s with
        startWalk := false, partState := .ready, tickInterval := some 1000, iface := .idle,
        requestBuffer := none, answerBuffer := none, refused := false,
        tables := { s.tables with
          rst := t.tables.rst, freeList := t.tables.freeList, notices := t.tables.notices } })

/-! ## Check links (chapters 2, 3, 9) -/

/-- A CHECK frame that acceptance screening denies is answered DENY with the reason of the first test that
fails (R26), and nothing else changes. Holds for PROBE and for HOLD. -/
def Obligations.ScreeningDenies : Prop :=
  ∀ (k : CheckKind) (p : PortId) (f : CheckFrame) (s : State) (r : DenyReason),
    s.hears p → (s.tables.port p).state ≠ .resetting → (accessOf f.accessByte).isSome = true →
    s.outstanding p f.tag = false →
    (let e := s.tables.entry f.index
     if (s.tables.port p).state = .unbound then some DenyReason.portUnbound
     else if (s.tables.port p).state = .fenced then some .portFenced
     else if s.partState = .clearing then some .clearing
     else if ((s.tables.portDomain p).map fun d => (s.tables.domain d).state) ≠ some .opened then
       some .domainClosed
     else if f.index = 0 then some .badIndex
     else if e.state = .free ∨ e.state = .pending ∨ e.generation ≠ f.generation then some .stale
     else if e.domain ≠ some 15 ∧ (e.domain = none ∨ e.domain ≠ s.tables.portDomain p) then some .foreign
     else if e.state = .suspended then some .suspended
     else if e.state = .draining then some .revoked
     else if e.state = .damaged then some .damaged
     else if k = .hold ∧ ∀ t, s.tables.hold p t ≠ .empty then some .holdFull
     else none) = some r →
    exec (checkCommand k p f) s = .next (s.withFrame p (.answer f.tag (.deny r)))

/-- A CHECK frame that passes every test of R26 occupies its slot, with the effective clearance of R35; a HOLD also
reserves the lowest EMPTY entry of its port. Its body read joins its bank's queue where there is a free place, and
at an idle bank its service or a refresh begins at once; with 12 jobs in the queue the slot waits at the bank in
phase ADMITTING, behind the port's slots that wait there (R25, R27, R28, R29, R143, R151, R152). -/
def Obligations.CheckIsScreenedAndReads : Prop :=
  ∀ (kd : CheckKind) (p : PortId) (f : CheckFrame) (a : Access) (s : State) (bnd : Binding) (k : RecKind)
    (tok : Option Token),
    s.hears p → s.tables.port p = ⟨.active, some bnd⟩ → accessOf f.accessByte = some a →
    s.outstanding p f.tag = false → s.partState ≠ .clearing →
    (s.tables.domain bnd.domain).state = .opened → f.index ≠ 0 →
    (s.tables.entry f.index).state = .live → (s.tables.entry f.index).generation = f.generation →
    ((s.tables.entry f.index).domain = some bnd.domain ∨ (s.tables.entry f.index).domain = some 15) →
    (s.tables.entry f.index).kind = some k →
    ((kd = .probe ∧ tok = none) ∨ (kd = .hold ∧ ∃ t', tok = some t' ∧ s.tables.hold p t' = .empty ∧
      ∀ u < t', s.tables.hold p u ≠ .empty)) →
    let job := Job.bodyRead f.index f.generation (.slot p f.tag)
    let bank := s.bank (bankOf f.index)
    let slot : SlotPhase → CheckSlot := fun ph =>
      { request := ⟨kd, f.index, f.generation, f.clearance, a, f.offset, f.length⟩
        clearance := min f.clearance bnd.maxClearance
        token := tok
        kind := k
        target := (s.tables.entry f.index).target
        named := ⟨f.index, f.generation, none⟩
        targetRead := none
        phase := ph }
    let reserved : Tables := match tok with
      | none => s.tables
      | some t' => s.tables.setHold p t' .reserved
    (bank.queue.length < 12 →
      ∃ t, exec (checkCommand kd p f) s = .next t ∧ t.slot p f.tag = some (slot .reading) ∧
        (∀ p' g, (p' ≠ p ∨ g ≠ f.tag) → t.slot p' g = s.slot p' g) ∧
        (t.bank (bankOf f.index)).queue = bank.queue ++ [job] ∧ JobJoins s t job ∧
        t = { s with slots := t.slots, banks := t.banks, storage := t.storage, tables := reserved }) ∧
    (12 ≤ bank.queue.length →
      exec (checkCommand kd p f) s = .next
        (State.setSlot { s with
            tables := reserved
            banks := place s.banks (bankOf f.index) { bank with
              slotsWaiting := place bank.slotsWaiting p (pick bank.slotsWaiting p ++ [f.tag]) } }
          p f.tag (some (slot .admitting))))

/-- The Hold Unit judges a RELEASE by the entry it names, in one claim. A HELD entry becomes EMPTY: it leaves the
fill order, a pin falls on the named record and on the resolved one where it differs, the writer it stood for
becomes absent, and the answer is RELEASED; the records here are not DRAINING (a DRAINING one is
DrainingCompletes). A BROKEN entry is answered LATE with its break reason, becomes EMPTY and its waiting BROKEN
frame is withdrawn. A RESERVED or EMPTY entry, or a token above 7, is answered UNKNOWN_TOKEN and nothing else
changes (R52, R53, R55, R57, R58, R59, R170). -/
def Obligations.ReleaseAnswersByEntry : Prop :=
  (∀ (p : PortId) (f : ReleaseFrame) (s : State) (tok : Token) (h : HeldHold),
      s.hears p → (s.tables.port p).state ≠ .resetting → s.outstanding p f.tag = false →
      f.token.toNat = tok.val → s.tables.hold p tok = .held h →
      (s.tables.entry h.index).state ≠ .draining → (s.tables.entry h.resolved).state ≠ .draining →
      ∃ t, exec (.release p f) s = .next t ∧
        (∀ p' t', t.tables.hold p' t' =
          if p' = p ∧ t' = tok then .empty else s.tables.hold p' t') ∧
        t.tables.fillOrder = s.tables.fillOrder.erase (p, tok) ∧
        (∀ i, t.tables.entry i =
          { s.tables.entry i with
            pins := if i = h.index ∨ i = h.resolved then (s.tables.entry i).pins - 1
                    else (s.tables.entry i).pins
            writer := if i = h.resolved ∧ h.access = .write then none else (s.tables.entry i).writer }) ∧
        t = { s with tables := { s.tables with
          rst := t.tables.rst, holds := t.tables.holds, fillOrder := t.tables.fillOrder,
          outbound := (s.tables.placeFrame p (.answer f.tag (.released f.token))).outbound } }) ∧
  (∀ (p : PortId) (f : ReleaseFrame) (s : State),
    s.hears p → (s.tables.port p).state ≠ .resetting → s.outstanding p f.tag = false →
    (∀ (tok : Token) (r : BreakReason) (w : Bool),
      f.token.toNat = tok.val → s.tables.hold p tok = .broken r w →
      ∃ t, exec (.release p f) s = .next t ∧
        (∀ p' t', t.tables.hold p' t' =
          if p' = p ∧ t' = tok then .empty else s.tables.hold p' t') ∧
        (∀ p', t.tables.queueOf p' =
          if p' = p then
            ((s.tables.queueOf p).filter fun x => !Tables.brokenFrameOf tok x) ++
              [.answer f.tag (.late f.token r)]
          else s.tables.queueOf p') ∧
        t = { s with tables := { s.tables with
          holds := t.tables.holds, outbound := t.tables.outbound } }) ∧
    ((8 ≤ f.token.toNat ∨ ∃ tok : Token, f.token.toNat = tok.val ∧
        (s.tables.hold p tok = .reserved ∨ s.tables.hold p tok = .empty)) →
      exec (.release p f) s = .next (s.withFrame p (.answer f.tag (.unknownToken f.token)))))

/-- A whole frame that fails a test of R164, or a short frame: it is not answered; an ACTIVE port becomes FENCED with
FENCED raised, a FENCED port has FENCED raised again, and nothing else changes but the receiver. It arrives from its
START on a HUNTING lane, or as the bytes that a RECEIVING lane still has to take. A whole frame, and a short frame
ended by IDLE or a code violation, leave the lane HUNTING; a short frame ended by START leaves it RECEIVING the next
frame, with no byte yet (R134, R163, R164, R167). -/
def Obligations.ProtocolFaultFences : Prop :=
  ∀ (p : PortId) (l : List Byte) (x y : List Symbol) (c : FenceCause) (rx : Receiver) (s : State),
    s.resetAsserted = false →
    ((pick s.receivers p = .hunting ∧ x = frameSymbols l) ∨
      ∃ got more, pick s.receivers p = .receiving got ∧ got.length < 16 ∧ l = got ++ more ∧
        x = more.map Symbol.data) →
    ((y = x ∧ l.length = 16 ∧ rx = .hunting ∧
        ((wordAt l 14 ≠ crc16 (l.take 14) ∧ c = .frameCheck) ∨
         (wordAt l 14 = crc16 (l.take 14) ∧ c = .unknownKind ∧
           (byteAt l 0 ∉ [1, 2, 3] ∨ (byteAt l 0 ∈ [1, 2] ∧ accessOf (byteAt l 7) = none))) ∨
         (wordAt l 14 = crc16 (l.take 14) ∧ c = .duplicateTag ∧
           (byteAt l 0 = 3 ∨ (byteAt l 0 ∈ [1, 2] ∧ (accessOf (byteAt l 7)).isSome = true)) ∧
           s.outstanding p (frameTag l) = true))) ∨
      (c = .frameCheck ∧ l.length < 16 ∧
        ((rx = .hunting ∧ (y = x ++ [.idle] ∨ y = x ++ [.violation])) ∨
          (rx = .receiving [] ∧ y = x ++ [.start])))) →
    ((s.tables.port p).state = .active ∨ (s.tables.port p).state = .fenced →
      ∃ t, exec (.protocolFault p y) s = .next t ∧
        t.tables.port p = ⟨.fenced, (s.tables.port p).binding⟩ ∧
        (∀ p', p' ≠ p → t.tables.port p' = s.tables.port p') ∧
        t.tables.portNotice p =
          { s.tables.portNotice p with
            fenced := true
            cause := if (s.tables.portNotice p).fenced = true then (s.tables.portNotice p).cause
                     else some c } ∧
        (∀ p', p' ≠ p → t.tables.portNotice p' = s.tables.portNotice p') ∧
        t.tables.notices =
          (if (s.tables.portNotice p).isEmpty = true then s.tables.notices ++ [.port p]
           else s.tables.notices) ∧
        t = { s with
          receivers := place s.receivers p rx
          tables := { s.tables with
            ports := t.tables.ports, portNotices := t.tables.portNotices, notices := t.tables.notices } }) ∧
    ((s.tables.port p).state = .unbound ∨ (s.tables.port p).state = .resetting →
      exec (.protocolFault p y) s = .next { s with receivers := place s.receivers p rx })

/-- On a RESETTING port every arriving frame is discarded: whatever symbols come, only the receiver of that link
changes (R137, R164, R171). Frames of every kind. -/
def Obligations.ResettingPortDiscards : Prop :=
  ∀ (p : PortId) (y : List Symbol) (k : CheckKind) (f : CheckFrame) (g : ReleaseFrame) (s : State),
    (s.tables.port p).state = .resetting →
    (∃ r, exec (.protocolFault p y) s = .next { s with receivers := place s.receivers p r }) ∧
    (∃ r, exec (checkCommand k p f) s = .next { s with receivers := place s.receivers p r }) ∧
    (∃ r, exec (.release p g) s = .next { s with receivers := place s.receivers p r })

/-- An IDLE transmitter begins to send the head of the outbound queue: the frame leaves the queue with its CRC-16
over its first 14 bytes in its last two, the lane carries START and its 16 bytes, and the entry of a BROKEN frame
records that its frame waits no more.
At the end of a transmission the transmitter becomes IDLE with an empty queue, and otherwise begins to send the
head as from IDLE. The lane carries IDLE symbols where the transmitter is IDLE, and is at rest while RESET_N is
asserted (R59, R163, R165, R169, R172). -/
def Obligations.TransmitterSends : Prop :=
  (∀ (p : PortId) (s : State), pick s.transmitters p = .idle →
      (s.tables.queueOf p = [] → exec (.transmissionStart p) s = .next s) ∧
      ∀ (f : OutFrame) (rest : List OutFrame), s.tables.queueOf p = f :: rest →
        ∃ t, exec (.transmissionStart p) s = .next t ∧
          pick t.transmitters p = .sending f.bytes ∧ f.bytes.length = 16 ∧
          (s.resetAsserted = false →
            t.outwardLane p = .symbols (.start :: f.bytes.map Symbol.data)) ∧
          wordAt f.bytes 14 = crc16 (f.bytes.take 14) ∧
          (∀ p', p' ≠ p → pick t.transmitters p' = pick s.transmitters p') ∧
          t.tables.queueOf p = rest ∧ (∀ p', p' ≠ p → t.tables.queueOf p' = s.tables.queueOf p') ∧
          (∀ p' k, t.tables.hold p' k =
            match f, s.tables.hold p' k with
            | .broken k' _, .broken r w => .broken r (if p' = p ∧ k' = k then false else w)
            | _, h => h) ∧
          t = { s with
            transmitters := t.transmitters
            tables := { s.tables with holds := t.tables.holds, outbound := t.tables.outbound } }) ∧
  (∀ (p : PortId) (s : State) (l : List Byte), pick s.transmitters p = .sending l →
      (s.tables.queueOf p = [] →
        exec (.transmissionEnd p) s = .next { s with transmitters := place s.transmitters p .idle }) ∧
      (s.tables.queueOf p ≠ [] →
        exec (.transmissionEnd p) s =
          exec (.transmissionStart p) { s with transmitters := place s.transmitters p .idle })) ∧
  ∀ (p : PortId) (s : State),
    (s.resetAsserted = true → s.outwardLane p = .rest) ∧
    (s.resetAsserted = false → pick s.transmitters p = .idle → s.outwardLane p = .symbols [.idle])


/-! ## Management frames (chapter 10) -/

/-- A write frame that begins while a request or an answer is in hand is discarded unexamined and sets the refused
flag, whatever it carries; every request comes to the same then. During STARTING every frame is ignored, and in
every part state so is one whose type byte is neither WRITE nor READ. A write frame taken in IDLE that is not the
kind, length, arguments and CRC-16 of one of the eighteen requests is answered FRAME_ERROR with no content, carrying
the kind where it is defined and 00h otherwise (R176, R177, R181, R190). -/
def Obligations.FramesNotTaken : Prop :=
  (∀ s : State, s.resetAsserted = false → s.partState ≠ .starting → s.iface ≠ .idle →
      (∀ l : List Byte, exec (.writeFrameRefused (writeType :: l)) s =
        .next { s with msdo := s.statusByte :: fillBytes l.length, refused := true }) ∧
      ∀ r : Request, exec r.command s =
        .next { s with msdo := s.statusByte :: fillBytes ((requestArgs r).length + 4), refused := true }) ∧
  (∀ (s : State) (type : Byte) (l : List Byte), s.resetAsserted = false →
      (s.partState = .starting ∨ (type ≠ 0xA5 ∧ type ≠ 0x5A)) →
      exec (.writeFrameRefused (type :: l)) s =
        .next { s with msdo := s.statusByte :: fillBytes l.length, refused := false }) ∧
  ∀ (s : State) (l : List Byte), s.listening →
    (¬ ∃ (kind : Byte) (args : List Byte), argLength kind = some args.length ∧
      l = kind :: byteNat args.length :: (args ++ bytes2 (crc16 (kind :: byteNat args.length :: args)))) →
    exec (.writeFrameRefused (writeType :: l)) s =
      .next { s with
        msdo := s.statusByte :: fillBytes l.length
        refused := false
        answerBuffer := some ⟨.frameError,
          match l with
          | kind :: _ => if argLength kind = none then 0 else kind
          | [] => 0, []⟩
        iface := .answerReady }

/-- A read frame shifts out the waiting answer, then fill bytes; through the last CRC byte it ends the answer,
and shorter it leaves the answer waiting; in IDLE and WORKING it shifts out fill bytes and changes nothing.
An answer is its status, request kind, content length, content, and the CRC-16 over them (R178, R187, R190). -/
def Obligations.ReadFrameCollects : Prop :=
  (∀ (s : State) (n : Nat), s.resetAsserted = false → s.partState ≠ .starting →
      (s.iface ≠ .answerReady →
        exec (.readFrame n) s = .next { s with msdo := s.statusByte :: fillBytes n, refused := false }) ∧
      ∀ a : Answer, s.iface = .answerReady → s.answerBuffer = some a →
        (n < a.content.length + 6 →
          exec (.readFrame n) s =
            .next { s with msdo := s.statusByte :: a.bytes.take n, refused := false }) ∧
        (a.content.length + 6 ≤ n →
          exec (.readFrame n) s =
            .next { s with
              msdo := s.statusByte :: (a.bytes ++ fillBytes (n - (a.content.length + 6)))
              refused := false
              answerBuffer := none
              iface := .idle })) ∧
  (∀ a : Answer, a.content.length < 65536 →
      a.bytes.length = a.content.length + 6 ∧
      byteAt a.bytes 0 = a.status.code ∧ byteAt a.bytes 1 = a.kind ∧
      (wordAt a.bytes 2).toNat = a.content.length ∧
      (a.bytes.drop 4).take a.content.length = a.content ∧
      wordAt a.bytes (a.content.length + 4) = crc16 (a.bytes.take (a.content.length + 4)))

/-! ## Requests on the part as a whole (R182, R183, R184, R185) -/

/-- INFO is answered DONE with fixed content, and changes no other state (R182, R190). -/
def Obligations.InfoAnswersIdentity : Prop :=
  ∀ s : State, s.listening →
    exec .info s = .next (s.answered .info .done
      [0x3A, 0x71, 0x48, 0x16, 1, 0x0F, 0xFF, 8, 16, 32, 8, 12, 8, 16])

/-- STATUS is answered DONE with 41 bytes of content, every field read in the claim, and changes no other
state (R183, R190). The parked count is the number of indices that are FREE and owe a reason. The part state byte
is 1 (log entry 26). -/
def Obligations.StatusAnswersSnapshot : Prop :=
  ∀ s : State, s.listening → ∃ c, exec .status s = .next (s.answered .status .done c) ∧
    c.length = 41 ∧ byteAt c 0 = 1 ∧ wordAt6 c 1 = s.epoch ∧ wordAt c 7 = s.tickPeriod ∧
    byteAt c 9 = (if s.alertEnable = true then 1 else 0) ∧
    wordAt c 10 = BitVec.ofNat 16 s.tables.freeList.length ∧
    (s.Canonical → wordAt c 12 = BitVec.ofNat 16 (indexCount fun i => decide
      ((s.tables.entry i).state = .free ∧
        (s.tables.entry i).reasons ≠ ⟨false, false, false, false⟩))) ∧
    wordAt c 12 = BitVec.ofNat 16 s.tables.parkedCount ∧
    wordAt c 14 = BitVec.ofNat 16 s.tables.notices.length ∧
    (∀ b : BankId, byteAt c (16 + b.val) = BitVec.ofNat 8 (s.bank b).debt) ∧
    byteAt c 32 = (match s.sweep with
      | some w => BitVec.ofNat 8 w.domain.val
      | none => 0xFF) ∧
    ∀ p : PortId, byteAt c (33 + p.val) = (s.tables.port p).state.code

/-- CONFIGURE sets the tick period and the alert enable and is answered DONE; the interval in progress keeps
its length, and ALERT_N follows. A period of 0, or an alert enable that is neither 0 nor 1, is refused
BAD_ARGUMENT with no change (R98, R117, R184, R188). -/
def Obligations.ConfigureSets : Prop :=
  ∀ (s : State) (a : ConfigureArgs), s.listening →
    (a.period = 0 ∨ 1 < a.alertEnable.toNat →
      exec (.configure a) s = .next (s.answered (.configure a) .badArgument [])) ∧
    (a.period ≠ 0 → a.alertEnable.toNat ≤ 1 →
      ∃ t, exec (.configure a) s = .next t ∧
        t = State.answered
          { s with tickPeriod := a.period, alertEnable := decide (a.alertEnable = 1) }
          (.configure a) .done [] ∧
        (t.alertAsserted = true ↔ a.alertEnable = 1 ∧ s.tables.notices ≠ []))

/-- TABLE_RESET's beginning claim: CLEARING; every HELD entry is BROKEN with reason TABLE_RESET, with its frame on an
ACTIVE or FENCED port in token order, and no other entry changes; every record's pins are 0, every writer is absent
and the fill order is empty, where these kept their laws before; the expiry queue is empty and no record has a
deadline; PORT, DOMAIN and BANK subjects owe nothing; the sweep is abandoned; domains 0 to 14 are CLOSED
with quota equal to count; the walk begins at index 1. RESERVED and BROKEN entries, ports, the epoch and the
banks are kept, and the engine waits on the walk (R51, R52, R53, R63, R69, R107, R119, R140, R185). -/
def Obligations.TableResetBegins : Prop :=
  ∀ s : State, s.listening → ∃ t, exec .tableReset s = .next t ∧
    t.partState = .clearing ∧ t.clearWalk = some 1 ∧ t.sweep = none ∧
    (∀ p k, isHeld (t.tables.hold p k) = false) ∧
    BreaksHolds .tableReset s.tables t.tables (heldTokens s.tables) ∧
    (PinLaw s.tables → ∀ i, (t.tables.entry i).pins = 0) ∧
    (WriterLaw s.tables → ∀ i, (t.tables.entry i).writer = none) ∧
    (FillLaw s → t.tables.fillOrder = []) ∧
    t.tables.expiryQueue = [] ∧ (∀ i, (t.tables.entry i).deadline = none) ∧
    (∀ x, isRecordSubject x = false → owes t.tables x = false ∧ x ∉ t.tables.notices) ∧
    (∀ p, (t.tables.portNotice p).cause = none) ∧
    (∀ d, d ≠ 15 → (t.tables.domain d).state = .closed ∧
      (t.tables.domain d).quota = (t.tables.domain d).count) ∧
    (t.tables.domain 15).state = (s.tables.domain 15).state ∧
    (t.tables.domain 15).quota = (s.tables.domain 15).quota ∧
    t.tables.ports = s.tables.ports ∧
    t = { s.inProgress .tableReset .walking none [] with
      partState := .clearing, clearWalk := some 1, sweep := none, tables := t.tables }

/-! ## Requests on ports (R131 to R133, R136, R138) -/

/-- BIND_PORT and UNBIND_PORT: their tests in order, the port's fields, and the port's entry in every answer but
one to a port number above 7 (R131, R132, R133). A bad argument of BIND_PORT other than the port number still
carries the port's entry (log entry 27). -/
def Obligations.BindAndUnbind : Prop :=
  (∀ (s : State) (a : BindPortArgs), s.listening →
      (8 ≤ a.port.toNat → exec (.bindPort a) s = .next (s.answered (.bindPort a) .badArgument [])) ∧
      ∀ (p : PortId), a.port.toNat = p.val →
        ((16 ≤ a.domain.toNat ∨ 8 ≤ a.maxClearance.toNat ∨ a.holdLimit = 0) →
          exec (.bindPort a) s =
            .next (s.answered (.bindPort a) .badArgument (portEntryBytes p (s.tables.port p)))) ∧
        ∀ (d : DomainId) (c : Clearance), a.domain.toNat = d.val → a.maxClearance.toNat = c.val →
          a.holdLimit ≠ 0 →
          ((s.tables.port p).state ≠ .unbound →
            exec (.bindPort a) s =
              .next (s.answered (.bindPort a) .portBusy (portEntryBytes p (s.tables.port p)))) ∧
          ((s.tables.port p).state = .unbound → (s.tables.domain d).state ≠ .opened →
            exec (.bindPort a) s =
              .next (s.answered (.bindPort a) .domainState (portEntryBytes p (s.tables.port p)))) ∧
          ((s.tables.port p).state = .unbound → (s.tables.domain d).state = .opened →
            exec (.bindPort a) s =
              .next (State.answered
                { s with tables := { s.tables with
                  ports := place s.tables.ports p ⟨.active, some ⟨d, c, a.holdLimit⟩⟩ } }
                (.bindPort a) .done (portEntryBytes p ⟨.active, some ⟨d, c, a.holdLimit⟩⟩)))) ∧
  (∀ (s : State) (a : PortArgs), s.listening →
      (8 ≤ a.port.toNat → exec (.unbindPort a) s = .next (s.answered (.unbindPort a) .badArgument [])) ∧
      ∀ (p : PortId), a.port.toNat = p.val →
        (((s.tables.port p).state = .unbound ∨ (s.tables.port p).state = .resetting ∨
            (∃ k, s.tables.hold p k ≠ .empty) ∨ ∃ g, s.slot p g ≠ none) →
          exec (.unbindPort a) s =
            .next (s.answered (.unbindPort a) .portBusy (portEntryBytes p (s.tables.port p)))) ∧
        (((s.tables.port p).state = .active ∨ (s.tables.port p).state = .fenced) →
          (∀ k, s.tables.hold p k = .empty) → (∀ g, s.slot p g = none) →
          exec (.unbindPort a) s =
            .next (State.answered
              { s with tables := { s.tables with ports := place s.tables.ports p ⟨.unbound, none⟩ } }
              (.unbindPort a) .done [byteNat p.val, 0, 0xFF, 0xFF, 0, 0])))

/-- PORT_RESET: its tests in order; the port becomes RESETTING with its binding kept and the answer is
ACCEPTED; with no tag in its tag table the reset also completes in the claim (R136, R138). -/
def Obligations.PortResetBegins : Prop :=
  ∀ (s : State) (a : PortArgs), s.listening →
    (8 ≤ a.port.toNat → exec (.portReset a) s = .next (s.answered (.portReset a) .badArgument [])) ∧
    ∀ (p : PortId), a.port.toNat = p.val →
      (((s.tables.port p).state = .unbound ∨ (s.tables.port p).state = .resetting) →
        exec (.portReset a) s =
          .next (s.answered (.portReset a) .portBusy (portEntryBytes p (s.tables.port p)))) ∧
      (((s.tables.port p).state = .active ∨ (s.tables.port p).state = .fenced) →
        ((∃ g, s.slot p g ≠ none) →
          exec (.portReset a) s =
            .next (State.answered
              { s with tables := { s.tables with
                ports := place s.tables.ports p ⟨.resetting, (s.tables.port p).binding⟩ } }
              (.portReset a) .accepted (portEntryBytes p ⟨.resetting, (s.tables.port p).binding⟩))) ∧
        ((∀ g, s.slot p g = none) →
          exec (.portReset a) s =
            .next (State.answered
              { s with tables := Tables.completeReset { s.tables with
                ports := place s.tables.ports p ⟨.resetting, (s.tables.port p).binding⟩ } p }
              (.portReset a) .accepted (portEntryBytes p ⟨.active, (s.tables.port p).binding⟩))))

/-- The completion of a port reset, once no tag is in the tag table: every entry of the port is EMPTY and the
waiting BROKEN frames of its BROKEN entries are withdrawn, ANSWER frames stay, the port is ACTIVE with its
binding, and RESET_DONE is raised, merging with a pending FENCED and its cause (R72, R113, R138). -/
def Obligations.PortResetCompletes : Prop :=
  ∀ (p : PortId) (s : State), (s.tables.port p).state = .resetting → (∀ g, s.slot p g = none) →
    ∃ t, exec (.portResetCompletion p) s = .next t ∧
      (∀ k, t.tables.hold p k = .empty) ∧
      (∀ p' k, p' ≠ p → t.tables.hold p' k = s.tables.hold p' k) ∧
      t.tables.port p = ⟨.active, (s.tables.port p).binding⟩ ∧
      (∀ p', p' ≠ p → t.tables.port p' = s.tables.port p') ∧
      (t.tables.portNotice p).resetDone = true ∧
      (t.tables.portNotice p).fenced = (s.tables.portNotice p).fenced ∧
      (t.tables.portNotice p).cause = (s.tables.portNotice p).cause ∧
      (∀ x ∈ s.tables.notices, x ∈ t.tables.notices) ∧
      ((s.tables.portNotice p).isEmpty = true → Subject.port p ∈ t.tables.notices) ∧
      (∀ k r w, s.tables.hold p k = .broken r w →
        ∀ f ∈ t.tables.queueOf p, Tables.brokenFrameOf k f = false) ∧
      (∀ g v, OutFrame.answer g v ∈ s.tables.queueOf p → OutFrame.answer g v ∈ t.tables.queueOf p) ∧
      (∀ p', p' ≠ p → t.tables.queueOf p' = s.tables.queueOf p') ∧
      t = { s with tables := t.tables }

/-! ## Requests on domains (R121, R124 to R127) -/

/-- OPEN_DOMAIN and SET_QUOTA: their tests in order, the domain's state and quota, and the domain's entry in every
answer but one to a domain number above 15 (R121, R124, R125). -/
def Obligations.OpenAndSetQuota : Prop :=
  (∀ (s : State) (a : QuotaArgs), s.listening →
      (16 ≤ a.domain.toNat →
        exec (.openDomain a) s = .next (s.answered (.openDomain a) .badArgument [])) ∧
      ∀ (d : DomainId), a.domain.toNat = d.val →
        (4095 < a.quota.toNat →
          exec (.openDomain a) s =
            .next (s.answered (.openDomain a) .badArgument (domainEntryBytes d (s.tables.domain d)))) ∧
        (a.quota.toNat ≤ 4095 → (s.tables.domain d).state ≠ .closed →
          exec (.openDomain a) s =
            .next (s.answered (.openDomain a) .domainState (domainEntryBytes d (s.tables.domain d)))) ∧
        (a.quota.toNat ≤ 4095 → (s.tables.domain d).state = .closed →
          exec (.openDomain a) s =
            .next (State.answered
              { s with tables := { s.tables with
                domains := place s.tables.domains d ⟨.opened, a.quota.toNat, (s.tables.domain d).count⟩ } }
              (.openDomain a) .done
              (domainEntryBytes d ⟨.opened, a.quota.toNat, (s.tables.domain d).count⟩)))) ∧
  (∀ (s : State) (a : QuotaArgs), s.listening →
      (16 ≤ a.domain.toNat →
        exec (.setQuota a) s = .next (s.answered (.setQuota a) .badArgument [])) ∧
      ∀ (d : DomainId), a.domain.toNat = d.val →
        let e := s.tables.domain d
        (4095 < a.quota.toNat →
          exec (.setQuota a) s =
            .next (s.answered (.setQuota a) .badArgument (domainEntryBytes d e))) ∧
        (a.quota.toNat ≤ 4095 → e.state ≠ .opened →
          exec (.setQuota a) s =
            .next (s.answered (.setQuota a) .domainState (domainEntryBytes d e))) ∧
        (a.quota.toNat ≤ 4095 → e.state = .opened → a.quota.toNat < e.count →
          exec (.setQuota a) s =
            .next (s.answered (.setQuota a) .quota (domainEntryBytes d e))) ∧
        (a.quota.toNat ≤ 4095 → e.state = .opened → e.count ≤ a.quota.toNat →
          exec (.setQuota a) s =
            .next (State.answered
              { s with tables := { s.tables with
                domains := place s.tables.domains d ⟨.opened, a.quota.toNat, e.count⟩ } }
              (.setQuota a) .done (domainEntryBytes d ⟨.opened, a.quota.toNat, e.count⟩))))

/-- CLOSE_DOMAIN: its tests in order (R126); the close claim makes the domain CLOSING, breaks every HELD entry
of the ports bound to it with DOMAIN_CLOSED and no other entry, and starts the sweep at cursor 1 (R63, R68, R127);
ACCEPTED. -/
def Obligations.CloseDomainCloses : Prop :=
  ∀ (s : State) (a : DomainArgs), s.listening →
    (16 ≤ a.domain.toNat →
      exec (.closeDomain a) s = .next (s.answered (.closeDomain a) .badArgument [])) ∧
    ∀ (d : DomainId), a.domain.toNat = d.val →
      let e := s.tables.domain d
      (d = 15 →
        exec (.closeDomain a) s =
          .next (s.answered (.closeDomain a) .badArgument (domainEntryBytes d e))) ∧
      (d ≠ 15 → e.state ≠ .opened →
        exec (.closeDomain a) s =
          .next (s.answered (.closeDomain a) .domainState (domainEntryBytes d e))) ∧
      (d ≠ 15 → e.state = .opened → s.sweep ≠ none →
        exec (.closeDomain a) s =
          .next (s.answered (.closeDomain a) .sweepBusy (domainEntryBytes d e))) ∧
      (d ≠ 15 → e.state = .opened → s.sweep = none →
        ∃ T, exec (.closeDomain a) s =
            .next (State.answered { s with tables := T, sweep := some ⟨d, 1⟩ } (.closeDomain a) .accepted
              (domainEntryBytes d (T.domain d))) ∧
          (T.domain d).state = .closing ∧ (T.domain d).quota = e.quota ∧ T.ports = s.tables.ports ∧
          BreaksHolds .domainClosed s.tables T fun p =>
            if s.tables.portDomain p = some d then heldTokens s.tables p else [])

/-! ## Establishes (R8, R74, R75, R77 to R81, R102, R188) -/

/-- ESTABLISH_DATA and ESTABLISH_ALIAS are refused by the first test that fails, with no change (R4, R5, R19, R77,
R79, R102, R188). -/
def Obligations.EstablishRefusals : Prop :=
  (∀ (s : State) (a : EstablishDataArgs), s.listening →
      ((16 ≤ a.domain.toNat ∨ a.rights = 0 ∨ 3 < a.rights.toNat ∨ 1 < a.sharing.toNat ∨
          7 < a.floor.toNat ∨ 1 < a.deadlinePresent.toNat ∨ (a.deadlinePresent = 0 ∧ a.deadline ≠ 0)) →
        exec (.establishData a) s = .next (s.answered (.establishData a) .badArgument [])) ∧
      ∀ (d : DomainId) (st : AnswerStatus), a.domain.toNat = d.val → a.rights ≠ 0 → a.rights.toNat ≤ 3 →
        a.sharing.toNat ≤ 1 → a.floor.toNat ≤ 7 → a.deadlinePresent.toNat ≤ 1 →
        (a.deadlinePresent = 0 → a.deadline = 0) →
        (if (s.tables.domain d).state ≠ .opened then some AnswerStatus.domainState
         else if (s.tables.domain d).quota ≤ (s.tables.domain d).count then some .quota
         else if s.tables.freeList = [] then some .tableFull
         else if a.base.toNat % 64 ≠ 0 ∨ a.extent.toNat % 64 ≠ 0 ∨ a.extent.toNat < 64 ∨
             2 ^ 32 < a.extent.toNat ∨ 2 ^ 48 < a.base.toNat + a.extent.toNat then some .badArgument
         else if a.deadlinePresent = 1 ∧ a.deadline ≤ s.epoch then some .badArgument
         else none) = some st →
        exec (.establishData a) s = .next (s.answered (.establishData a) st [])) ∧
  (∀ (s : State) (a : EstablishAliasArgs), s.listening →
      ((16 ≤ a.domain.toNat ∨ 4096 ≤ a.target.toNat ∨ a.rights = 0 ∨ 3 < a.rights.toNat ∨
          7 < a.floor.toNat ∨ 1 < a.deadlinePresent.toNat ∨ (a.deadlinePresent = 0 ∧ a.deadline ≠ 0)) →
        exec (.establishAlias a) s = .next (s.answered (.establishAlias a) .badArgument [])) ∧
      ∀ (d : DomainId) (t : Index) (st : AnswerStatus), a.domain.toNat = d.val → a.target.toNat = t.val →
        a.rights ≠ 0 → a.rights.toNat ≤ 3 → a.floor.toNat ≤ 7 → a.deadlinePresent.toNat ≤ 1 →
        (a.deadlinePresent = 0 → a.deadline = 0) →
        (let e := s.tables.entry t
         if (s.tables.domain d).state ≠ .opened then some AnswerStatus.domainState
         else if t = 0 then some .badArgument
         else if e.state = .free ∨ e.state = .pending ∨ e.generation ≠ a.targetGeneration then some .stale
         else if e.kind ≠ some .dataKind then some .badArgument
         else if e.state ≠ .live ∧ e.state ≠ .suspended then some .state
         else if e.domain ≠ some d ∧ e.domain ≠ some 15 then some .foreign
         else if 15 ≤ e.aliases.length then some .aliasLimit
         else if (s.tables.domain d).quota ≤ (s.tables.domain d).count then some .quota
         else if s.tables.freeList = [] then some .tableFull
         else if a.offset.toNat % 64 ≠ 0 ∨ a.extent.toNat % 64 ≠ 0 ∨ a.extent.toNat < 64 ∨
             2 ^ 32 < a.extent.toNat then some .badArgument
         else if a.deadlinePresent = 1 ∧ a.deadline ≤ s.epoch then some .badArgument
         else none) = some st →
        exec (.establishAlias a) s = .next (s.answered (.establishAlias a) st []))

/-- ESTABLISH_DATA that passes its tests takes the free-list head: PENDING at its generation, counted in its
domain; its BODY_WRITE joins its bank's queue where there is room, and is begun at once at an idle bank below debt 4 (R8,
R75, R77, R143). -/
def Obligations.EstablishDataTakesHead : Prop :=
  ∀ (s : State) (a : EstablishDataArgs) (d : DomainId) (r : Rights) (h : Sharing) (fl : Clearance)
    (dl : Option Epoch) (i : Index) (rest : List Index), s.listening →
    establishDataOf a = some (d, ⟨a.base, a.extent, r, h, fl, a.tag⟩, dl) →
    (s.tables.domain d).state = .opened → (s.tables.domain d).count < (s.tables.domain d).quota →
    s.tables.freeList = i :: rest → i ≠ 0 →
    (DataBody.mk a.base a.extent r h fl a.tag).inRange = true → (∀ e, dl = some e → s.epoch < e) →
    (s.bank (bankOf i)).queue.length < 12 →
    let job := Job.bodyWrite i (s.tables.entry i).generation
      (.dataBody ⟨a.base, a.extent, r, h, fl, a.tag⟩)
    ∃ t, exec (.establishData a) s = .next t ∧
      t.tables.entry i = { s.tables.entry i with
        state := .pending, domain := some d, kind := some .dataKind, target := none, pins := 0,
        writer := none, deadline := none } ∧
      (∀ j, j ≠ i → t.tables.entry j = s.tables.entry j) ∧
      t.tables.domain d = { s.tables.domain d with count := (s.tables.domain d).count + 1 } ∧
      (∀ d', d' ≠ d → t.tables.domain d' = s.tables.domain d') ∧
      (t.bank (bankOf i)).queue = (s.bank (bankOf i)).queue ++ [job] ∧
      JobJoins s t job ∧
      t = { s.inProgress (.establishData a) .job (some (i, (s.tables.entry i).generation)) [⟨job, none⟩] with
        banks := t.banks
        storage := t.storage
        tables := { s.tables with
          rst := t.tables.rst, domains := t.tables.domains, freeList := rest } }

/-- ESTABLISH_ALIAS that passes its tests takes the free-list head as a PENDING alias, appends it at the tail
of its target's alias list, counts it in its own domain, and asks for a BODY_READ of the target at the
target's generation, which joins its bank's queue (R8, R75, R79, R143). -/
def Obligations.EstablishAliasTakesHead : Prop :=
  ∀ (s : State) (a : EstablishAliasArgs) (d : DomainId) (tg : Index) (body : AliasBody)
    (dl : Option Epoch) (i : Index) (rest : List Index), s.listening →
    establishAliasOf a = some (d, tg, body, dl) →
    s.establishAliasRefusal d tg a.targetGeneration body dl = none →
    s.tables.freeList = i :: rest → i ≠ 0 → i ≠ tg →
    (s.bank (bankOf tg)).queue.length < 12 →
    let job := Job.bodyRead tg (s.tables.entry tg).generation .engine
    ∃ t, exec (.establishAlias a) s = .next t ∧
      t.tables.entry i = { s.tables.entry i with
        state := .pending, domain := some d, kind := some .aliasKind, target := some tg, pins := 0,
        writer := none, deadline := none } ∧
      t.tables.entry tg = { s.tables.entry tg with aliases := (s.tables.entry tg).aliases ++ [i] } ∧
      (∀ j, j ≠ i → j ≠ tg → t.tables.entry j = s.tables.entry j) ∧
      t.tables.domain d = { s.tables.domain d with count := (s.tables.domain d).count + 1 } ∧
      (∀ d', d' ≠ d → t.tables.domain d' = s.tables.domain d') ∧
      (t.bank (bankOf tg)).queue = (s.bank (bankOf tg)).queue ++ [job] ∧
      JobJoins s t job ∧
      t = { s.inProgress (.establishAlias a) .job (some (i, (s.tables.entry i).generation))
          [⟨job, none⟩] with
        banks := t.banks
        storage := t.storage
        tables := { s.tables with
          rst := t.tables.rst, domains := t.tables.domains, freeList := rest } }

/-! ## AMEND, SUSPEND, RESUME, REVOKE (R76, R82 to R90) -/

/-- AMEND and REVOKE are refused by the first test that fails, with no change (R76, R82, R88, R188). Masked fields
out of range are encoding tests and come first; the mask itself is judged at step 2 (log entry 19). -/
def Obligations.HandleRefusals : Prop :=
  (∀ (s : State) (a : AmendArgs), s.listening →
      ((4096 ≤ a.index.toNat ∨ 1 < a.force.toNat ∨
          (a.mask.getLsbD 0 = true ∧ (a.rights = 0 ∨ 3 < a.rights.toNat)) ∨
          (a.mask.getLsbD 1 = true ∧ 1 < a.sharing.toNat) ∨ (a.mask.getLsbD 2 = true ∧ 7 < a.floor.toNat)) →
        exec (.amend a) s = .next (s.answered (.amend a) .badArgument [])) ∧
      ∀ (i : Index) (c : AmendChanges) (st : AnswerStatus), a.index.toNat = i.val → a.force.toNat ≤ 1 →
        changesOf a = some c →
        (let e := s.tables.entry i
         if i = 0 then some AnswerStatus.badArgument
         else if e.state = .free ∨ e.state = .pending ∨ e.generation ≠ a.generation then some .stale
         else if e.state ≠ .live ∧ e.state ≠ .suspended then some .state
         else if a.mask.extractLsb' 0 7 = 0 ∨ (a.mask.getLsbD 5 = true ∧ a.mask.getLsbD 6 = true) ∨
             (a.mask.getLsbD 1 = true ∧ e.kind = some .aliasKind) ∨
             (a.mask.getLsbD 3 = true ∧ (a.extent.toNat % 64 ≠ 0 ∨ a.extent.toNat < 64 ∨
               2 ^ 32 < a.extent.toNat)) ∨
             (a.mask.getLsbD 5 = true ∧ a.deadline ≤ s.epoch) then some .badArgument
         else if a.mask.getLsbD 3 = true ∧ e.kind = some .dataKind ∧ e.aliases ≠ [] then some .referenced
         else none) = some st →
        exec (.amend a) s = .next (s.answered (.amend a) st [])) ∧
  (∀ (s : State) (a : RevokeArgs), s.listening →
      ((4096 ≤ a.index.toNat ∨ 3 < a.flags.toNat) →
        exec (.revoke a) s = .next (s.answered (.revoke a) .badArgument [])) ∧
      ∀ (i : Index) (st : AnswerStatus), a.index.toNat = i.val → a.flags.toNat ≤ 3 →
        (let e := s.tables.entry i
         if i = 0 then some AnswerStatus.badArgument
         else if e.state = .free ∨ e.state = .pending ∨ e.generation ≠ a.generation then some .stale
         else if e.state = .draining then some .state
         else if e.aliases ≠ [] ∧ a.flags.getLsbD 0 = false then some .referenced
         else none) = some st →
        exec (.revoke a) s = .next (s.answered (.revoke a) st []))

/-- An AMEND of the deadline alone is completed in its acceptance claim: set, the record stands in the expiry
queue at its new deadline behind every equal or earlier one; cleared, it leaves the queue and its deadline
becomes absent. An AMEND of body fields that passes its tests changes no record: it asks for the AMEND job at the
record's bank, or first, for an alias whose extent changes, for a BODY_READ of the target. The job joins the queue
where there is a free place; with 12 jobs in the queue the engine waits at the bank in phase ADMITTING (R75, R82,
R83, R84, R100, R101, R143, R151, R152). -/
def Obligations.AmendAtAcceptance : Prop :=
  (∀ (s : State) (a : AmendArgs) (i : Index), s.listening →
    a.index.toNat = i.val → i ≠ 0 → a.force.toNat ≤ 1 →
    ((s.tables.entry i).state = .live ∨ (s.tables.entry i).state = .suspended) →
    (s.tables.entry i).generation = a.generation →
    ((a.mask = 0x20 → s.epoch < a.deadline →
      ∃ t, exec (.amend a) s = .next t ∧
        t.tables.entry i = { s.tables.entry i with deadline := some a.deadline } ∧
        (∀ j, j ≠ i → t.tables.entry j = s.tables.entry j) ∧
        t.tables.expiryQueue =
          Tables.insertDue a.deadline i (s.tables.expiryQueue.filter fun x => x.2 != i) ∧
        t = State.answered { s with tables := { s.tables with
          rst := t.tables.rst, expiryQueue := t.tables.expiryQueue } } (.amend a) .done []) ∧
     (a.mask = 0x40 →
      ∃ t, exec (.amend a) s = .next t ∧
        t.tables.entry i = { s.tables.entry i with deadline := none } ∧
        (∀ j, j ≠ i → t.tables.entry j = s.tables.entry j) ∧
        t.tables.expiryQueue = (s.tables.expiryQueue.filter fun x => x.2 != i) ∧
        t = State.answered { s with tables := { s.tables with
          rst := t.tables.rst, expiryQueue := t.tables.expiryQueue } } (.amend a) .done []))) ∧
  ∀ (s : State) (a : AmendArgs) (i : Index) (force : Bool) (c : AmendChanges) (job : Job), s.listening →
    indexOf a.index = some i → flagOf a.force = some force → changesOf a = some c →
    s.amendRefusal i a.generation a.mask c = none → deadlineOnly c = false →
    (((a.mask.getLsbD 3 = false ∨ (s.tables.entry i).kind = some .dataKind) ∧
        job = .amendJob i a.generation c force) ∨
      (a.mask.getLsbD 3 = true ∧ (s.tables.entry i).kind = some .aliasKind ∧
        ∃ t, (s.tables.entry i).target = some t ∧
          job = .bodyRead t (s.tables.entry t).generation .engine)) →
    let bank := s.bank (bankOf job.index)
    (bank.queue.length < 12 →
      ∃ t, exec (.amend a) s = .next t ∧
        (t.bank (bankOf job.index)).queue = bank.queue ++ [job] ∧ JobJoins s t job ∧
        t = { s.inProgress (.amend a) .job none [⟨job, none⟩] with
          banks := t.banks, storage := t.storage }) ∧
    (12 ≤ bank.queue.length →
      exec (.amend a) s = .next { s.inProgress (.amend a) .admitting none [⟨job, none⟩] with
        banks := place s.banks (bankOf job.index) { bank with engineWaiting := some job } })

/-- SUSPEND takes a LIVE record to SUSPENDED and RESUME a SUSPENDED record to LIVE; no other field of the
record and no other record changes; every other state is refused STATE, and a bad handle BAD_ARGUMENT or
STALE, with no change (R11, R76, R87). -/
def Obligations.SuspendAndResume : Prop :=
  ∀ (s : State) (a : HandleArgs) (r : Request) (found next : RecState), s.listening →
    ((r = .suspend a ∧ found = .live ∧ next = .suspended) ∨
      (r = .resume a ∧ found = .suspended ∧ next = .live)) →
    (4096 ≤ a.index.toNat → exec r.command s = .next (s.answered r .badArgument [])) ∧
    ∀ (i : Index), a.index.toNat = i.val →
      let e := s.tables.entry i
      (i = 0 → exec r.command s = .next (s.answered r .badArgument [])) ∧
      (i ≠ 0 → (e.state = .free ∨ e.state = .pending ∨ e.generation ≠ a.generation) →
        exec r.command s = .next (s.answered r .stale [])) ∧
      (i ≠ 0 → e.state ≠ .free → e.state ≠ .pending → e.generation = a.generation → e.state ≠ found →
        exec r.command s = .next (s.answered r .state [])) ∧
      (i ≠ 0 → e.generation = a.generation → e.state = found →
        ∃ t, exec r.command s = .next t ∧
          t.tables.entry i = { e with state := next } ∧
          (∀ j, j ≠ i → t.tables.entry j = s.tables.entry j) ∧
          t = State.answered { s with tables := { s.tables with rst := t.tables.rst } } r .done [])

/-- REVOKE retires a LIVE, SUSPENDED or DAMAGED record. Without break, of a record with an empty alias list,
a DATA record or an alias whose target is not DRAINING: pinned, it becomes DRAINING and leaves the expiry
queue, answered ACCEPTED; unpinned, it becomes FREE at the next generation, leaves its target's list and its
domain's count, joins the free-list tail or is parked where it owed a notice, answered DONE. In every form it
becomes FREE, answered DONE, or DRAINING, answered ACCEPTED, and `Retires` says what becomes of its holds and of its
aliases: with break each hold resting on it, and with cascade on an alias retired with it, is BROKEN with reason
REVOKED, every other entry stays, and it is FREE where no alias is left. The BROKEN frames of a port stand in token
order, whichever record each hold named (the model's choice where R63 and R66 meet, log entry 28) (R12, R15, R17,
R63, R66, R88, R89, R90, R91). -/
def Obligations.RevokeRetires : Prop :=
  (∀ (s : State) (a : RevokeArgs) (i : Index) (d : DomainId), s.listening →
      a.index.toNat = i.val → i ≠ 0 → a.flags.toNat ≤ 1 →
      (s.tables.entry i).generation = a.generation →
      ((s.tables.entry i).state = .live ∨ (s.tables.entry i).state = .suspended ∨
        (s.tables.entry i).state = .damaged) →
      (s.tables.entry i).aliases = [] → (s.tables.entry i).domain = some d →
      (∀ t, (s.tables.entry i).target = some t → t ≠ i ∧ (s.tables.entry t).state ≠ .draining) →
      ((s.tables.entry i).pins ≠ 0 →
        ∃ t, exec (.revoke a) s = .next t ∧
          t.tables.entry i = { s.tables.entry i with state := .draining, deadline := none } ∧
          (∀ j, j ≠ i → t.tables.entry j = s.tables.entry j) ∧
          t = State.answered { s with tables := { s.tables with
              rst := t.tables.rst
              expiryQueue := s.tables.expiryQueue.filter fun x => x.2 != i } }
            (.revoke a) .accepted (handleBytes i a.generation)) ∧
      ((s.tables.entry i).pins = 0 →
        ∃ t, exec (.revoke a) s = .next t ∧
          t.tables.entry i = { StatusEntry.freeAt (a.generation + 1) with
            reasons := (s.tables.entry i).reasons, noticeGen := (s.tables.entry i).noticeGen } ∧
          (∀ j, j ≠ i → t.tables.entry j =
            if (s.tables.entry i).target = some j then
              { s.tables.entry j with aliases := (s.tables.entry j).aliases.erase i }
            else s.tables.entry j) ∧
          t = State.answered { s with tables := { s.tables with
              rst := t.tables.rst
              expiryQueue := s.tables.expiryQueue.filter fun x => x.2 != i
              domains := place s.tables.domains d
                { s.tables.domain d with count := (s.tables.domain d).count - 1 }
              freeList := if (s.tables.entry i).reasons = ⟨false, false, false, false⟩ then
                  s.tables.freeList ++ [i] else s.tables.freeList } }
            (.revoke a) .done (handleBytes i a.generation))) ∧
  ∀ (s : State) (a : RevokeArgs) (i : Index), s.listening → a.index.toNat = i.val → a.flags.toNat ≤ 3 →
    (s.tables.entry i).generation = a.generation →
    ((s.tables.entry i).state = .live ∨ (s.tables.entry i).state = .suspended ∨
      (s.tables.entry i).state = .damaged) → i ≠ 0 →
    ((s.tables.entry i).aliases = [] ∨ a.flags.getLsbD 0 = true) →
    ∃ T, exec (.revoke a) s = .next (State.answered { s with tables := T } (.revoke a)
        (if (T.entry i).state = .free then .done else .accepted) (handleBytes i a.generation)) ∧
      Retires (a.flags.getLsbD 0) (a.flags.getLsbD 1) i s.tables T

/-! ## QUERY and FETCH_NOTICE (R94, R114, R115) -/

/-- QUERY of index 0, or of a FREE, PENDING or DRAINING record, is answered DONE at once with the status
fields and no body; of a LIVE, SUSPENDED or DAMAGED record it asks for a BODY_READ at the record's
generation. It changes no record and is never refused STALE. The completion of its body read forms the answer from
the status entry as it stands then: no body where the generation differs; DAMAGED with the fields read where the
record is DAMAGED or the code disagreed, after the damage claim; DONE with the fields read otherwise. The place that
the job frees has been granted, and the bank makes its next choice (R1, R94, R95, R143, R146, R147, R191). The zeros
that `queryBytes` puts behind a present byte of 0 are the model's choice (log entry 31). -/
def Obligations.QueryAnswers : Prop :=
  (∀ (s : State) (a : QueryArgs), s.listening →
    (4096 ≤ a.index.toNat → exec (.query a) s = .next (s.answered (.query a) .badArgument [])) ∧
    ∀ (i : Index), a.index.toNat = i.val →
      let e := s.tables.entry i
      (i = 0 → exec (.query a) s = .next (s.answered (.query a) .done
        (queryBytes 0 (StatusEntry.freeAt 0) none))) ∧
      (e.state = .free ∨ e.state = .pending ∨ e.state = .draining →
        exec (.query a) s = .next (s.answered (.query a) .done (queryBytes i e none))) ∧
      (e.state = .live ∨ e.state = .suspended ∨ e.state = .damaged →
        (s.bank (bankOf i)).queue.length < 12 →
        ∃ t, exec (.query a) s = .next t ∧
          (t.bank (bankOf i)).queue =
            (s.bank (bankOf i)).queue ++ [.bodyRead i e.generation .engine] ∧
          JobJoins s t (.bodyRead i e.generation .engine) ∧
          t = { s.inProgress (.query a) .job none [⟨.bodyRead i e.generation .engine, none⟩] with
            banks := t.banks, storage := t.storage })) ∧
  ∀ (s : State) (b : BankId) (i : Index) (g : Generation) (rest : List Job) (e : Progress) (a : QueryArgs),
    (s.bank b).controller = .busy → (s.bank b).queue = .bodyRead i g .engine :: rest →
    s.engine = some e → e.request = .query a →
    ∃ t, exec (.bodyReadCompletion b none) s = .next t ∧ t.iface = .answerReady ∧
      t.tables = (if (s.readBody i).agreed = true ∨ (s.tables.entry i).generation ≠ g then s.tables
        else s.tables.damageClaim i g) ∧
      t.answerBuffer = some (
        if (s.tables.entry i).generation ≠ g then
          ⟨.done, 0x10, queryBytes i (s.tables.entry i) none⟩
        else if (s.tables.entry i).state = .damaged ∨ (s.readBody i).agreed = false then
          ⟨.damaged, 0x10, queryBytes i (t.tables.entry i) (some (s.readBody i))⟩
        else ⟨.done, 0x10, queryBytes i (s.tables.entry i) (some (s.readBody i))⟩) ∧
      ∀ u, PlaceGranted s u b rest → JobEnds s u t b { u with
        tables := t.tables
        iface := .answerReady
        answerBuffer := t.answerBuffer
        engine := some { e with
          phase := .answered, jobs := e.jobs.map (withResult (.read (s.readBody i))) } }

/-- FETCH_NOTICE of an empty list is answered EMPTY. Otherwise the head subject leaves the list, its reason
set is cleared and its notice answered DONE: a parked record joins the free-list tail, a record that is not
FREE keeps its state, a port keeps its state, and nothing else changes (R17, R114, R115, R191). The two zeros that
stand for an absent notice generation, behind its present byte of 0, are the model's choice (log entry 31). -/
def Obligations.FetchNoticeRemovesHead : Prop :=
  ∀ s : State, s.listening →
    (s.tables.notices = [] →
      exec .fetchNotice s = .next (s.answered .fetchNotice .emptyList [])) ∧
    (∀ (i : Index) (rest : List Subject), s.tables.notices = .record i :: rest → i ≠ 0 →
      ∃ t, exec .fetchNotice s = .next t ∧
        t.tables.entry i =
          { s.tables.entry i with reasons := ⟨false, false, false, false⟩, noticeGen := none } ∧
        (∀ j, j ≠ i → t.tables.entry j = s.tables.entry j) ∧
        t = State.answered { s with tables := { s.tables with
            notices := rest
            rst := t.tables.rst
            freeList := if (s.tables.entry i).state = .free then s.tables.freeList ++ [i]
              else s.tables.freeList } }
          .fetchNotice .done
          ([1] ++ bytesNat2 i.val ++ [(s.tables.entry i).reasons.code] ++
            noticeGenBytes (s.tables.entry i).noticeGen ++ [0] ++ bytesNat2 rest.length)) ∧
    (∀ (p : PortId) (rest : List Subject), s.tables.notices = .port p :: rest →
      exec .fetchNotice s = .next (State.answered { s with tables := { s.tables with
          notices := rest
          portNotices := place s.tables.portNotices p ⟨false, false, none⟩ } }
        .fetchNotice .done
        ([2] ++ bytesNat2 p.val ++ [(s.tables.portNotice p).code] ++ [0, 0, 0] ++
          [causeCode (s.tables.portNotice p).cause] ++ bytesNat2 rest.length))) ∧
    (∀ (d : DomainId) (rest : List Subject), s.tables.notices = .domain d :: rest →
      pick s.tables.domainClosed d = true →
      exec .fetchNotice s = .next (State.answered { s with tables := { s.tables with
          notices := rest
          domainClosed := place s.tables.domainClosed d false } }
        .fetchNotice .done
        ([3] ++ bytesNat2 d.val ++ [1, 0, 0, 0, 0] ++ bytesNat2 rest.length))) ∧
    ∀ (b : BankId) (rest : List Subject), s.tables.notices = .bank b :: rest →
      pick s.tables.bankLoss b = true →
      exec .fetchNotice s = .next (State.answered { s with tables := { s.tables with
          notices := rest
          bankLoss := place s.tables.bankLoss b false } }
        .fetchNotice .done
        ([4] ++ bytesNat2 b.val ++ [1, 0, 0, 0, 0] ++ bytesNat2 rest.length))

/-! ## Body reads of checks (R30 to R42, R147) -/

/-- The decision makes its tests in order on the status entries as they stand and on the bodies read, for a
direct check and for a check through an alias, every read having agreed. Where a read did not agree, the alias's or
the target's, the reason is that of the first earlier test that fails, and DAMAGED, of step 9, where none does,
whatever the bodies hold (R33 to R38). -/
def Obligations.DecisionFollowsOrder : Prop :=
  (∀ (s : State) (p : PortId) (x : CheckSlot) (d : DataBody) (c : BitVec 16),
    (x.kind = .dataKind → x.targetRead = none → x.named.result = some ⟨.dataBody d, c, true⟩ →
      s.decisionReason p x = s.decisionTests p x x.named.index (.dataBody d) x.named.index d) ∧
    (∀ (j : Index) (a : AliasBody) (c' : BitVec 16) (g : Generation),
      x.kind = .aliasKind → x.target = some j → x.named.result = some ⟨.aliasBody a, c', true⟩ →
      x.targetRead = some ⟨j, g, some ⟨.dataBody d, c, true⟩⟩ →
      s.decisionReason p x = s.decisionTests p x x.named.index (.aliasBody a) j d)) ∧
  ∀ (s : State) (p : PortId) (x : CheckSlot) (j : Index) (r : ReadResult), x.named.result = some r →
    ((x.kind = .dataKind ∧ x.targetRead = none ∧ j = x.named.index ∧ r.agreed = false) ∨
      (x.kind = .aliasKind ∧ x.target = some j ∧ x.targetRead = none ∧ r.agreed = false) ∨
      ∃ tr r', x.kind = .aliasKind ∧ x.target = some j ∧ x.targetRead = some tr ∧ tr.result = some r' ∧
        (r.agreed = false ∨ r'.agreed = false)) →
    s.decisionReason p x = s.earlyDeny p x x.named.index j false ∧
      s.decisionReason p x = some ((s.earlyDeny p x x.named.index j true).getD .damaged)

/-- The completion of a check's last body read is its decision claim, and the slot is free after it. The last read
is a direct check's one read, an alias's target read, and the read of an alias that fails a test of R31. The
verdict is formed, for a target read that did not agree the reason of an earlier test or DAMAGED; on a port that is not RESETTING the answer is placed at the tail of the port's outbound queue, a
DENY returns the reserved entry to EMPTY and an allowed HOLD fills it; on a RESETTING port the answer is discarded
and the entry returned. The damage claims of mismatched reads follow, the named record's before the target's, and
their BROKEN frames stand in token order (the two orders are the model's choice, log entries 15 and 28). The last
tag of a RESETTING port completes its reset in the claim. The place that the job frees has been granted, and the
bank makes its next choice (R31, R33, R34, R39 to R42, R138, R143, R146, R147, R153). -/
def Obligations.CheckIsDecided : Prop :=
  ∀ (s u : State) (b : BankId) (p : PortId) (g : Tag) (i j : Index) (gen : Generation) (rest : List Job)
    (x y : CheckSlot),
    (s.bank b).controller = .busy → (s.bank b).queue = .bodyRead i gen (.slot p g) :: rest →
    PlaceGranted s u b rest → u.slot p g = some x →
    (x.kind = .dataKind → j = x.named.index) → (x.kind = .aliasKind → x.target = some j) →
    ((x.targetRead = none ∧ y = { x with named := { x.named with result := some (s.readBody i) } } ∧
        (x.kind = .dataKind ∨
          s.earlyDeny p x x.named.index j (s.readBody i).agreed ≠ none)) ∨
      ∃ tr, x.targetRead = some tr ∧
        y = { x with targetRead := some { tr with result := some (s.readBody i) } }) →
    ∃ t T1 T2, exec (.bodyReadCompletion b none) s = .next t ∧
      t.slot p g = none ∧ (∀ p' g', (p' ≠ p ∨ g' ≠ g) → t.slot p' g' = u.slot p' g') ∧
      ChoiceMade (u.bank b) (t.bank b) ∧ (∀ b', b' ≠ b → t.bank b' = s.bank b') ∧
      t = { u with slots := t.slots, banks := t.banks, storage := t.storage, tables := t.tables } ∧
      (x.targetRead = none → ∀ r, s.earlyDeny p x x.named.index j (s.readBody i).agreed = some r →
        s.decisionReason p y = some r) ∧
      (∀ tr, x.targetRead = some tr → (s.readBody i).agreed = false →
        s.decisionReason p y = some ((s.earlyDeny p x x.named.index j true).getD .damaged)) ∧
      T1 = (if (s.tables.port p).state = .resetting then
          match x.token with
          | none => s.tables
          | some k => s.tables.setHold p k .empty
        else
          match s.decisionReason p y, x.token with
          | some r, none => s.tables.placeFrame p (.answer g (.deny r))
          | some r, some k => (s.tables.setHold p k .empty).placeFrame p (.answer g (.deny r))
          | none, none => s.tables.placeFrame p (.answer g (allowVerdict y))
          | none, some k => (fillHold s.tables p k y).placeFrame p (.answer g (allowVerdict y))) ∧
      (x.targetRead = none →
        T2 = if (s.readBody i).agreed = true then T1
          else T1.damageClaim x.named.index x.named.generation) ∧
      (∀ tr, x.targetRead = some tr →
        let D1 := if x.named.result.any (fun r => !r.agreed) = true then
            T1.damageClaim x.named.index x.named.generation else T1
        let D2 := if (s.readBody i).agreed = true then D1 else D1.damageClaim tr.index tr.generation
        T2 = { D2 with outbound := T2.outbound } ∧
          ∀ p', (T2.queueOf p').Perm (D2.queueOf p') ∧
            BrokenInOrder .damaged (T1.queueOf p') (T2.queueOf p')) ∧
      t.tables =
        if (s.tables.port p).state = .resetting ∧ ∀ g', g' ≠ g → s.slot p g' = none then
          T2.completeReset p
        else T2

/-- An ALLOW carries the address, computed exactly, the named record's window tag and, for a HOLD, the token;
the fill makes the entry HELD with the request's fields and the port's hold limit on its timer, raises the
pins of the records concerned, sets the writer of a SOLE record for WRITE access, and joins the fill order
(R39, R40, R49, R52, R53, R60). -/
def Obligations.AllowAndFill : Prop :=
  ∀ (T : Tables) (p : PortId) (k : Token) (x : CheckSlot) (bnd : Binding) (d : DataBody) (c : BitVec 16)
    (j : Index) (start : Nat) (tag : BitVec 16),
    (T.port p).binding = some bnd →
    ((x.kind = .dataKind ∧ x.targetRead = none ∧ x.named.result = some ⟨.dataBody d, c, true⟩ ∧
        j = x.named.index ∧ start = d.base.toNat ∧ tag = d.tag) ∨
      ∃ (a : AliasBody) (c' : BitVec 16) (g : Generation), x.kind = .aliasKind ∧ x.target = some j ∧
        x.named.result = some ⟨.aliasBody a, c', true⟩ ∧
        x.targetRead = some ⟨j, g, some ⟨.dataBody d, c, true⟩⟩ ∧
        start = d.base.toNat + a.offset.toNat ∧ tag = a.tag) →
    allowVerdict x = .allow (BitVec.ofNat 48 (start + x.request.offset.toNat)) tag x.token ∧
    (fillHold T p k x).hold p k = .held
      { index := x.named.index, generation := x.request.generation, resolved := j,
        access := x.request.access, offset := x.request.offset, length := x.request.length,
        clearance := x.clearance, timer := bnd.holdLimit } ∧
    (∀ p' k', (p' ≠ p ∨ k' ≠ k) → (fillHold T p k x).hold p' k' = T.hold p' k') ∧
    (∀ i, i ≠ 0 → (fillHold T p k x).entry i = { T.entry i with
      pins := if i = x.named.index ∨ i = j then (T.entry i).pins + 1 else (T.entry i).pins
      writer := if i = j ∧ x.request.access = .write ∧ d.sharing = .sole then some p
        else (T.entry i).writer }) ∧
    (fillHold T p k x).fillOrder = T.fillOrder ++ [(p, k)]

/-- The completion of an alias's body read whose tests of R31 pass issues the target's body read, carrying the
target's generation as it stands; nothing is answered. The place that the completed job frees is granted first.
The target read joins the queue of the target's bank where there is a free place then; with 12 jobs in it, which
the grant can bring about where alias and target lie in one bank, the slot waits at that bank in phase ADMITTING.
The completing bank makes its next choice after that (R31, R143, R146, R152, R153, R154). -/
def Obligations.AliasReadAsksForTarget : Prop :=
  ∀ (s u : State) (b : BankId) (p : PortId) (g : Tag) (i j : Index) (gen : Generation) (rest : List Job)
    (x y : CheckSlot),
    (s.bank b).controller = .busy → (s.bank b).queue = .bodyRead i gen (.slot p g) :: rest →
    PlaceGranted s u b rest → u.slot p g = some x → x.kind = .aliasKind →
    x.targetRead = none → x.target = some j →
    y = { x with named := { x.named with result := some (s.readBody i) } } →
    (s.readBody i).agreed = true → s.partState ≠ .clearing →
    ((s.tables.portDomain p).map fun d => (s.tables.domain d).state) = some .opened →
    (s.tables.entry x.named.index).state = .live →
    (s.tables.entry x.named.index).generation = x.request.generation →
    ((s.tables.entry x.named.index).domain = some 15 ∨
      ∃ d, (s.tables.entry x.named.index).domain = some d ∧ s.tables.portDomain p = some d) →
    (s.tables.entry j).state = .live →
    let job := Job.bodyRead j (s.tables.entry j).generation (.slot p g)
    ∃ t, exec (.bodyReadCompletion b none) s = .next t ∧
      t.slot p g = some { y with
        targetRead := some ⟨j, (s.tables.entry j).generation, none⟩
        phase := if (u.bank (bankOf j)).queue.length < 12 then .reading else .admitting } ∧
      (∀ p' g', (p' ≠ p ∨ g' ≠ g) → t.slot p' g' = u.slot p' g') ∧
      JobAsked u t b job (fun k =>
        { k with slotsWaiting := place k.slotsWaiting p (pick k.slotsWaiting p ++ [g]) }) ∧
      t = { u with slots := t.slots, banks := t.banks, storage := t.storage }

/-- A damage claim on record `i` carrying generation `g` (R14, R67): stale, or on a FREE, PENDING or DAMAGED
record, it changes nothing. On every record it claims, each HELD entry that rests on it becomes BROKEN with reason
DAMAGED and leaves the fill order, with a BROKEN frame on an ACTIVE or FENCED port in ascending order of token, and
every other entry stays; PIN_BROKEN is raised on an alias that such a hold names and not on the record itself
(R63, R64). A LIVE or SUSPENDED record leaves the expiry queue, DAMAGED is raised and the state becomes DAMAGED,
with pins 0 and no writer. On a DRAINING record DAMAGED is raised, and it completes if its alias list is or becomes
empty: DRAINED, FREE at the next generation; it stays DRAINING with pins 0 otherwise (R13). -/
def Obligations.DamageClaimDamages : Prop :=
  ∀ (T : Tables) (i : Index) (g : Generation),
    ((T.entry i).generation ≠ g ∨ (T.entry i).state = .free ∨ (T.entry i).state = .pending ∨
      (T.entry i).state = .damaged → T.damageClaim i g = T) ∧
    ((T.entry i).generation = g → (T.entry i).state = .live ∨ (T.entry i).state = .suspended →
      (∀ p k h, T.hold p k = .held h → h.index ≠ i ∧ h.resolved ≠ i) →
      (T.damageClaim i g).entry i = { T.entry i with
        state := .damaged
        deadline := none
        reasons := { (T.entry i).reasons with damaged := true }
        noticeGen := if (T.entry i).reasons = ⟨false, false, false, false⟩ then some g
          else (T.entry i).noticeGen } ∧
      (∀ j, j ≠ i → (T.damageClaim i g).entry j = T.entry j) ∧
      T.damageClaim i g = { T with
        rst := (T.damageClaim i g).rst
        expiryQueue := T.expiryQueue.filter fun x => x.2 != i
        notices := if (T.entry i).reasons = ⟨false, false, false, false⟩ then T.notices ++ [.record i]
          else T.notices }) ∧
    ((T.entry i).generation = g → (T.entry i).state = .live ∨ (T.entry i).state = .suspended ∨
        (T.entry i).state = .draining →
      ∃ t, t = T.damageClaim i g ∧
        BreaksHolds .damaged T t (restingTokens T i) ∧
        (T.fillOrder.Nodup →
          t.fillOrder = T.fillOrder.filter fun x => decide (x.2 ∉ restingTokens T i x.1)) ∧
        (t.entry i).reasons.damaged = true ∧
        (t.entry i).reasons.pinBroken = (T.entry i).reasons.pinBroken ∧
        (EntryLaw T → PinLaw T → ∀ p k h, T.hold p k = .held h → h.resolved = i → h.index ≠ i →
          (t.entry h.index).reasons.pinBroken = true) ∧
        (∀ j, j ≠ i →
          (∀ p k h, T.hold p k = .held h → h.index = i ∨ h.resolved = i →
            h.index ≠ j ∧ h.resolved ≠ j ∧ (T.entry h.index).target ≠ some j ∧
              (T.entry h.resolved).target ≠ some j) →
          (T.entry i).target ≠ some j → t.entry j = T.entry j) ∧
        ((T.entry i).state = .live ∨ (T.entry i).state = .suspended →
          (t.entry i).state = .damaged ∧ (t.entry i).generation = g ∧ (t.entry i).deadline = none ∧
          (∀ x ∈ t.expiryQueue, x.2 ≠ i) ∧
          (t.entry i).reasons = { (T.entry i).reasons with damaged := true } ∧
          (PinLaw T → (t.entry i).pins = 0) ∧ (WriterLaw T → (t.entry i).writer = none)) ∧
        ((T.entry i).state = .draining → PinLaw T →
          ((t.entry i).state = .free ∧ (t.entry i).generation = g + 1 ∧
              (t.entry i).reasons.drained = true) ∨
            ((T.entry i).aliases ≠ [] ∧ (t.entry i).state = .draining ∧ (t.entry i).generation = g ∧
              (t.entry i).pins = 0 ∧ (t.entry i).aliases ≠ [])))

/-! ## Jobs of the Management Engine (R78, R80, R81, R84 to R86, R95, R148, R149) -/

/-- The completion of a BODY_WRITE writes the body with its check code, and the PENDING record becomes LIVE
with its deadline, if one was given, in the expiry queue; the agent is answered DONE with the handle. For an
alias this holds where its target is LIVE or SUSPENDED with the generation named in the request; otherwise
the alias becomes FREE at the next generation and the agent is answered REVOKED. The place that the job frees has
been granted, `w` being the state with the body written, and the bank makes its next choice (R6, R9, R10, R78, R81,
R143, R146, R148, R153). -/
def Obligations.BodyWriteResolvesEstablish : Prop :=
  ∀ (s w : State) (b : BankId) (i : Index) (g : Generation) (body : Body) (rest : List Job) (e : Progress)
    (dl : Option Epoch),
    (s.bank b).controller = .busy → (s.bank b).queue = .bodyWrite i g body :: rest → bankOf i = b →
    s.PagesClean → i ≠ 0 → (s.tables.entry i).state = .pending → (s.tables.entry i).generation = g →
    s.engine = some e → w = s.writeCell i (.stored ⟨body, crc16 body.bytes⟩) →
    let answeredBy : State → State → AnswerStatus → List Byte → Prop := fun u t st content =>
      JobEnds w u t b { u with
        tables := t.tables
        iface := .answerReady
        answerBuffer := some ⟨st, requestKind e.request, content⟩
        engine := some { e with phase := .answered, jobs := e.jobs.map (withResult .wrote) } }
    (((∃ a d x, e.request = .establishData a ∧ establishDataOf a = some (d, x, dl)) ∨
        (∃ a d tg x, e.request = .establishAlias a ∧ establishAliasOf a = some (d, tg, x, dl) ∧
          ((s.tables.entry tg).state = .live ∨ (s.tables.entry tg).state = .suspended) ∧
          (s.tables.entry tg).generation = a.targetGeneration)) →
      ∃ t, exec (.bodyWriteCompletion b) s = .next t ∧
        t.cellAt i = .stored ⟨body, crc16 body.bytes⟩ ∧ (∀ j, j ≠ i → t.cellAt j = s.cellAt j) ∧
        t.tables.entry i = { s.tables.entry i with
          state := .live
          deadline := match dl with
            | some d => some d
            | none => (s.tables.entry i).deadline } ∧
        (∀ j, j ≠ i → t.tables.entry j = s.tables.entry j) ∧
        t.tables = { s.tables with
          rst := t.tables.rst
          expiryQueue := match dl with
            | some d => Tables.insertDue d i (s.tables.expiryQueue.filter fun x => x.2 != i)
            | none => s.tables.expiryQueue } ∧
        t.answerBuffer = some ⟨.done, requestKind e.request, handleBytes i g⟩ ∧
        t.iface = .answerReady ∧
        ∀ u, PlaceGranted w u b rest → answeredBy u t .done (handleBytes i g)) ∧
    ((∃ a d tg x, e.request = .establishAlias a ∧ establishAliasOf a = some (d, tg, x, dl) ∧
        (((s.tables.entry tg).state ≠ .live ∧ (s.tables.entry tg).state ≠ .suspended) ∨
          (s.tables.entry tg).generation ≠ a.targetGeneration)) →
      ∃ t, exec (.bodyWriteCompletion b) s = .next t ∧
        t.cellAt i = .stored ⟨body, crc16 body.bytes⟩ ∧ (∀ j, j ≠ i → t.cellAt j = s.cellAt j) ∧
        (t.tables.entry i).state = .free ∧ (t.tables.entry i).generation = g + 1 ∧
        t.tables = Tables.becomeFree none s.tables i ∧
        t.answerBuffer = some ⟨.revoked, requestKind e.request, []⟩ ∧ t.iface = .answerReady ∧
        ∀ u, PlaceGranted w u b rest → answeredBy u t .revoked [])

/-- The completion of the target read of an alias establish makes its tests in order: the first that fails
frees the PENDING alias at the next generation and gives the answer, and a mismatched read makes its damage claim on
the target, whatever test failed: after the alias is freed where the target was found not LIVE or SUSPENDED, and
before it where the code alone disagreed. When all pass, no table changes and a BODY_WRITE of the alias is asked for
at its bank. The place that the read frees is granted first, and the bank makes its next choice last (R5, R10, R14,
R15, R80, R143, R146, R150, R152, R153). -/
def Obligations.AliasEstablishTargetRead : Prop :=
  ∀ (s : State) (b : BankId) (tg i : Index) (tgen g : Generation) (rest : List Job) (e : Progress)
    (a : EstablishAliasArgs) (d : DomainId) (body : AliasBody) (dl : Option Epoch),
    (s.bank b).controller = .busy → (s.bank b).queue = .bodyRead tg tgen .engine :: rest →
    s.engine = some e → e.request = .establishAlias a →
    e.taken = some (i, g) → establishAliasOf a = some (d, tg, body, dl) → i ≠ 0 → tg ≠ i →
    (s.tables.entry i).state = .pending → (s.tables.entry i).generation = g →
    let r := s.readBody tg
    let stands := (s.tables.entry tg).state = .live ∨ (s.tables.entry tg).state = .suspended
    (∀ st, (if ¬ stands then some AnswerStatus.revoked
        else if r.agreed = false then some .damaged
        else if r.body.extent.toNat < body.offset.toNat + body.extent.toNat then some .badArgument
        else if body.rights.subset r.body.rights = false then some .badArgument
        else none) = some st →
      ∃ t, exec (.bodyReadCompletion b none) s = .next t ∧
        (t.tables.entry i).state = .free ∧ (t.tables.entry i).generation = g + 1 ∧
        (AliasLaw s.tables → i ∉ (t.tables.entry tg).aliases) ∧
        t.tables = (if r.agreed = true then Tables.becomeFree none s.tables i
          else if stands then Tables.becomeFree none (s.tables.damageClaim tg tgen) i
          else (Tables.becomeFree none s.tables i).damageClaim tg tgen) ∧
        t.answerBuffer = some ⟨st, 0x0B, []⟩ ∧ t.iface = .answerReady ∧
        ∀ u, PlaceGranted s u b rest → JobEnds s u t b { u with
          tables := t.tables
          iface := .answerReady
          answerBuffer := some ⟨st, 0x0B, []⟩
          engine := some { e with phase := .answered, jobs := e.jobs.map (withResult (.read r)) } }) ∧
    (stands → r.agreed = true → body.offset.toNat + body.extent.toNat ≤ r.body.extent.toNat →
      body.rights.subset r.body.rights = true →
      let job := Job.bodyWrite i g (.aliasBody body)
      ∃ t, exec (.bodyReadCompletion b none) s = .next t ∧ t.tables = s.tables ∧
        t.iface = s.iface ∧ t.answerBuffer = s.answerBuffer ∧
        ∀ u, PlaceGranted s u b rest →
          JobAsked u t b job (fun k => { k with engineWaiting := some job }) ∧
          t = { u with
            banks := t.banks
            storage := t.storage
            engine := some { e with
              phase := if (u.bank (bankOf i)).queue.length < 12 then .job else .admitting
              jobs := e.jobs.map (withResult (.read r)) ++ [⟨job, none⟩] } })

/-- The completion of the target read of an alias AMEND: a DAMAGED target is answered DAMAGED, a DRAINING one
STATE, and a mismatched read of a target in any other state DAMAGED; the alias is left as it was, and a mismatched
read makes its damage claim on the target. Otherwise the AMEND job is asked for at the alias's bank, with the
target's extent kept; a FREE target goes on so too (log entry 21). That the job carries the handle's generation is
the model's choice (log entry 32). The place that the read frees is granted first, and the bank makes its next
choice last (R84, R143, R146, R150, R152, R153). -/
def Obligations.AliasAmendTargetRead : Prop :=
  ∀ (s : State) (b : BankId) (tg i : Index) (tgen : Generation) (rest : List Job) (e : Progress)
    (a : AmendArgs) (force : Bool) (c : AmendChanges),
    (s.bank b).controller = .busy → (s.bank b).queue = .bodyRead tg tgen .engine :: rest →
    s.engine = some e → e.request = .amend a →
    indexOf a.index = some i → flagOf a.force = some force → changesOf a = some c →
    let r := s.readBody tg
    (∀ st, (if (s.tables.entry tg).state = .damaged then some AnswerStatus.damaged
        else if (s.tables.entry tg).state = .draining then some .state
        else if r.agreed = false then some .damaged
        else none) = some st →
      ∃ t, exec (.bodyReadCompletion b none) s = .next t ∧
        t.answerBuffer = some ⟨st, 0x0C, []⟩ ∧ t.iface = .answerReady ∧
        t.tables = (if r.agreed = true then s.tables else s.tables.damageClaim tg tgen) ∧
        ∀ u, PlaceGranted s u b rest → JobEnds s u t b { u with
          tables := t.tables
          iface := .answerReady
          answerBuffer := some ⟨st, 0x0C, []⟩
          engine := some { e with phase := .answered, jobs := e.jobs.map (withResult (.read r)) } }) ∧
    ((s.tables.entry tg).state ≠ .damaged → (s.tables.entry tg).state ≠ .draining → r.agreed = true →
      let job := Job.amendJob i a.generation c force
      ∃ t, exec (.bodyReadCompletion b none) s = .next t ∧ t.tables = s.tables ∧
        t.iface = s.iface ∧ t.answerBuffer = s.answerBuffer ∧
        ∀ u, PlaceGranted s u b rest →
          JobAsked u t b job (fun k => { k with engineWaiting := some job }) ∧
          t = { u with
            banks := t.banks
            storage := t.storage
            engine := some { e with
              phase := if (u.bank (bankOf i)).queue.length < 12 then .job else .admitting
              jobs := e.jobs.map (withResult (.read r)) ++ [⟨job, none⟩]
              targetExtent := some r.body.extent } })

/-- The read half of an AMEND job ends in the AMEND's decision: the first test that fails gives the answer,
and the body, the holds, the writer and the deadline stay as they were but for the damage claim of a
mismatched read; that claim also completes the job, with the grant of its place and the bank's next choice; when every test passes, with no conflicting hold, the new body and its check code are
written, the deadline change is made, and the job goes on to its write half unanswered. With force, the
conflicting holds are BROKEN with reason AMENDED in the same claim and every other entry stays. The writer of a
DATA record is then the port of the oldest writing hold that stands, where the new sharing is SOLE and there is
one, and absent otherwise (R53, R63, R65, R83, R85, R86, R143, R146, R149, R153). -/
def Obligations.AmendJobDecides : Prop :=
  ∀ (s : State) (b : BankId) (i : Index) (g : Generation) (c : AmendChanges) (force : Bool)
    (rest : List Job) (e : Progress) (r : ReadResult),
    (s.bank b).controller = .busy → (s.bank b).writeHalf = false →
    (s.bank b).queue = .amendJob i g c force :: rest → bankOf i = b →
    s.engine = some e → r = s.readBody i →
    (∀ st, (if (s.tables.entry i).state = .free ∨ (s.tables.entry i).generation ≠ g then
          some AnswerStatus.stale
        else if (s.tables.entry i).state ≠ .live ∧ (s.tables.entry i).state ≠ .suspended then some .state
        else if r.agreed = false then some .damaged
        else if amendInBounds c e.targetExtent r.body = false then some .badArgument
        else if conflictingHolds s.tables i (amendedBody c r.body) ≠ [] ∧ force = false then some .conflict
        else none) = some st →
      ∃ t, exec (.amendReadHalfEnd b none) s = .next t ∧
        t.answerBuffer = some ⟨st, requestKind e.request, []⟩ ∧ t.iface = .answerReady ∧
        t.tables = (if r.agreed = true then s.tables else s.tables.damageClaim i g) ∧
        ∀ u, PlaceGranted s u b rest → JobEnds s u t b { u with
          tables := t.tables
          iface := .answerReady
          answerBuffer := some ⟨st, requestKind e.request, []⟩
          engine := some { e with phase := .answered, jobs := e.jobs.map (withResult (.amended st)) } }) ∧
    (((s.tables.entry i).state = .live ∨ (s.tables.entry i).state = .suspended) → i ≠ 0 →
      (s.tables.entry i).generation = g → r.agreed = true →
      amendInBounds c e.targetExtent r.body = true →
      conflictingHolds s.tables i (amendedBody c r.body) = [] →
      (s.bank b).openPage.map OpenPage.page = some (pageOf i) →
      ∃ t, exec (.amendReadHalfEnd b none) s = .next t ∧
        t.cellAt i = .stored ⟨amendedBody c r.body, crc16 (amendedBody c r.body).bytes⟩ ∧
        (∀ j, j ≠ i → t.cellAt j = s.cellAt j) ∧
        (match amendedBody c r.body with
          | .dataBody d => WriterAfterAmend s.tables i d (t.tables.entry i).writer
          | .aliasBody _ => (t.tables.entry i).writer = (s.tables.entry i).writer) ∧
        t.tables.entry i = { s.tables.entry i with
          writer := (t.tables.entry i).writer
          deadline := match c.deadline with
            | .keep => (s.tables.entry i).deadline
            | .set x => some x
            | .clear => none } ∧
        (∀ j, j ≠ i → t.tables.entry j = s.tables.entry j) ∧
        t.tables.holds = s.tables.holds ∧ t.tables.notices = s.tables.notices ∧
        (t.bank b).queue = (s.bank b).queue ∧ (t.bank b).controller = .busy ∧
        (t.bank b).writeHalf = true ∧ (∀ b', b' ≠ b → t.bank b' = s.bank b') ∧
        t.iface = s.iface ∧ t.answerBuffer = s.answerBuffer) ∧
    (((s.tables.entry i).state = .live ∨ (s.tables.entry i).state = .suspended) → i ≠ 0 →
      (s.tables.entry i).generation = g → r.agreed = true →
      amendInBounds c e.targetExtent r.body = true →
      conflictingHolds s.tables i (amendedBody c r.body) ≠ [] → force = true →
      (s.bank b).openPage.map OpenPage.page = some (pageOf i) →
      ∃ t, exec (.amendReadHalfEnd b none) s = .next t ∧
        t.cellAt i = .stored ⟨amendedBody c r.body, crc16 (amendedBody c r.body).bytes⟩ ∧
        (∀ j, j ≠ i → t.cellAt j = s.cellAt j) ∧
        BreaksHolds .amended s.tables t.tables
          (conflictTokens s.tables i (amendedBody c r.body)) ∧
        (∀ d, amendedBody c r.body = .dataBody d →
          WriterAfterAmend s.tables i d (t.tables.entry i).writer) ∧
        (t.tables.entry i).deadline = (match c.deadline with
            | .keep => (s.tables.entry i).deadline
            | .set x => some x
            | .clear => none) ∧
        (t.bank b).queue = (s.bank b).queue ∧ (t.bank b).controller = .busy ∧
        (t.bank b).writeHalf = true ∧ (∀ b', b' ≠ b → t.bank b' = s.bank b') ∧
        t.iface = s.iface ∧ t.answerBuffer = s.answerBuffer)

/-- Which holds conflict with a new body (R65): one that names the record, by clearance, range or access; one
that reaches it through an alias, by access; and of the other writing holds on a body that becomes SOLE, every
one but the oldest in the fill order. With force, each conflicting hold is BROKEN with reason AMENDED after the
decision, every other one stays, and the writer of a DATA record is the port of that oldest hold (R53, R63,
R86). -/
def Obligations.AmendConflicts : Prop :=
  (∀ (T : Tables) (i : Index) (body : Body) (p : PortId) (k : Token) (h : HeldHold),
    T.hold p k = .held h →
    (((p, k) ∈ conflictingHolds T i body) ↔
      (h.index = i ∨ h.resolved = i) ∧
        (body.rights.has h.access = false ∨
          (h.index = i ∧ (h.clearance < body.floor ∨
            body.extent.toNat < h.offset.toNat + h.length.toNat)) ∨
          (body.sharing = .sole ∧ h.access = .write ∧ ¬ oldestWriter T i body (p, k))))) ∧
  ∀ (T : Tables) (i : Index) (body : Body) (c : AmendChanges),
    BreaksHolds .amended T (amendTables T i c body) (conflictTokens T i body) ∧
    ∀ d, i ≠ 0 → body = .dataBody d → WriterAfterAmend T i d ((amendTables T i c body).entry i).writer

/-- The end of an AMEND job's write half: the job leaves the queue, the place it frees is granted to a waiting
claimant in the same claim, the agent is answered DONE, and the bank makes its next choice. No body position and no
table changes. The jobs' results stand as they are; that the job has its result since the end of its read half is
the model's choice (log entry 33) (R86, R143, R146, R149, R153). -/
def Obligations.AmendJobCompletes : Prop :=
  ∀ (s u : State) (b : BankId) (i : Index) (g : Generation) (c : AmendChanges) (force : Bool)
    (rest : List Job) (e : Progress),
    (s.bank b).controller = .busy → (s.bank b).writeHalf = true →
    (s.bank b).queue = .amendJob i g c force :: rest → PlaceGranted s u b rest →
    s.engine = some e →
    ∃ t, exec (.amendJobCompletion b) s = .next t ∧ ChoiceMade (u.bank b) (t.bank b) ∧
      (∀ b', b' ≠ b → t.bank b' = s.bank b') ∧ (s.PagesClean → ∀ j, t.cellAt j = s.cellAt j) ∧
      t = { u with
        banks := t.banks
        storage := t.storage
        iface := .answerReady
        answerBuffer := some ⟨.done, requestKind e.request, []⟩
        engine := some { e with phase := .answered } }

/-! ## Service, admission and refresh of a bank (R142 to R146, R152 to R156, R158 to R160) -/

/-- The choice point of a bank with no job in progress. Below debt 4, and with no urgent run, an idle bank takes
its head job: the bank becomes BUSY with the job's page in its page buffer. At debt 4, in an urgent run, or with
no job waiting and debt above 0, a refresh begins: the page buffer is emptied, the page at the pointer goes
under refresh, the debt falls by 1 and the pointer advances. At the end of a refresh the same choice is made,
and a bank with no job and debt 0 rests. No body position changes (R142, R143, R144, R146, R156, R158). -/
def Obligations.BankServesAndRefreshes : Prop :=
  ∀ (s : State) (b : BankId), s.PagesClean →
    ((s.bank b).controller = .idleClosed ∨ (s.bank b).controller = .idleOpen →
      (∀ (job : Job) (rest : List Job), (s.bank b).queue = job :: rest → (s.bank b).debt < 4 →
        (s.bank b).urgent = false →
        ∃ t op, exec (.jobServiceStart b) s = .next t ∧ op.page = pageOf job.index ∧
          t.bank b = { s.bank b with controller := .busy, openPage := some op, writeHalf := false } ∧
          (∀ b', b' ≠ b → t.bank b' = s.bank b') ∧ (∀ i, t.cellAt i = s.cellAt i) ∧
          t = { s with banks := t.banks, storage := t.storage }) ∧
      (0 < (s.bank b).debt →
        (s.bank b).queue = [] ∨ 4 ≤ (s.bank b).debt ∨ (s.bank b).urgent = true →
        ∃ t, exec (.refreshStart b) s = .next t ∧
          t.bank b = { s.bank b with
            controller := .refreshing
            openPage := none
            underRefresh := some (s.bank b).pointer
            debt := (s.bank b).debt - 1
            pointer := (s.bank b).pointer + 1
            urgent := (s.bank b).urgent || decide (4 ≤ (s.bank b).debt) } ∧
          (∀ b', b' ≠ b → t.bank b' = s.bank b') ∧ (∀ i, t.cellAt i = s.cellAt i) ∧
          t = { s with banks := t.banks, storage := t.storage })) ∧
    ((s.bank b).controller = .refreshing →
      ∃ t, exec (.refreshEnd b) s = .next t ∧
        (∀ b', b' ≠ b → t.bank b' = s.bank b') ∧ (∀ i, t.cellAt i = s.cellAt i) ∧
        t = { s with banks := t.banks, storage := t.storage } ∧
        (((s.bank b).urgent = true ∧ 0 < (s.bank b).debt) ∨ 4 ≤ (s.bank b).debt ∨
            ((s.bank b).queue = [] ∧ 0 < (s.bank b).debt) →
          t.bank b = { s.bank b with
            controller := .refreshing
            openPage := none
            underRefresh := some (s.bank b).pointer
            debt := (s.bank b).debt - 1
            pointer := (s.bank b).pointer + 1
            urgent := (s.bank b).urgent || decide (4 ≤ (s.bank b).debt) }) ∧
        (∀ (job : Job) (rest : List Job), (s.bank b).queue = job :: rest → (s.bank b).debt < 4 →
          (s.bank b).urgent = false ∨ (s.bank b).debt = 0 →
          ∃ op, op.page = pageOf job.index ∧
            t.bank b = { s.bank b with
              controller := .busy, openPage := some op, writeHalf := false,
              underRefresh := none, urgent := false }) ∧
        ((s.bank b).queue = [] → (s.bank b).debt = 0 →
          t.bank b = { s.bank b with
            controller := if (s.bank b).openPage = none then .idleClosed else .idleOpen
            underRefresh := none
            urgent := false }))

/-- A refresh tick, RESET_N being released. Below debt 8 the debt rises by 1; at an idle bank with no job
that is a choice point, and a refresh begins at once. At debt 8 the pointer advances; a pointer page that is
open counts as refreshed. One that is not open is lost: its eight positions become undefined, a LIVE or
SUSPENDED record in it becomes DAMAGED and no hold rests on it, the BROKEN frames of a port stand in token order
(where pins keep their law, those of exactly the holds resting on a LIVE, SUSPENDED or DRAINING record of the page),
RETENTION_LOSS is raised on the bank, and the debt stays 8 (R155, R156, R159, R160). That the commands
RETENTION_LOSS and REFRESH_TICK come to one state then is the model's choice (log entry 5), and so are the name
`s.freeCount` that the lost positions are undefined under, with its counter (log entry 7), and the frames' order
(log entry 28). -/
def Obligations.RefreshTickCounts : Prop :=
  ∀ (s : State) (b : BankId), s.resetAsserted = false →
    ((s.bank b).debt < 8 → (s.bank b).controller = .busy ∨ (s.bank b).controller = .refreshing →
      exec (.refreshTick b) s = .next (s.setBank b { s.bank b with debt := (s.bank b).debt + 1 })) ∧
    ((s.bank b).debt < 8 →
      (s.bank b).controller = .idleClosed ∨ (s.bank b).controller = .idleOpen →
      (s.bank b).queue = [] → s.PagesClean →
      ∃ t, exec (.refreshTick b) s = .next t ∧
        t.bank b = { s.bank b with
          controller := .refreshing
          openPage := none
          underRefresh := some (s.bank b).pointer
          pointer := (s.bank b).pointer + 1
          urgent := (s.bank b).urgent || decide (4 ≤ (s.bank b).debt + 1) } ∧
        (∀ b', b' ≠ b → t.bank b' = s.bank b') ∧ (∀ i, t.cellAt i = s.cellAt i) ∧
        t = { s with banks := t.banks, storage := t.storage }) ∧
    ((s.bank b).debt = 8 → (s.bank b).openPage.map OpenPage.page = some (s.bank b).pointer →
      exec (.refreshTick b) s =
        .next (s.setBank b { s.bank b with pointer := (s.bank b).pointer + 1 })) ∧
    ((s.bank b).debt = 8 → (s.bank b).openPage.map OpenPage.page ≠ some (s.bank b).pointer →
      exec (.refreshTick b) s = exec (.retentionLoss b) s ∧
      ∃ t, exec (.retentionLoss b) s = .next t ∧
        t.bank b = { s.bank b with pointer := (s.bank b).pointer + 1 } ∧
        (∀ b', b' ≠ b → t.bank b' = s.bank b') ∧
        (∀ i ∈ pageIndices b (s.bank b).pointer, t.cellAt i = .undefined s.freeCount) ∧
        (∀ i, i ∉ pageIndices b (s.bank b).pointer → t.cellAt i = s.cellAt i) ∧
        (∀ i ∈ pageIndices b (s.bank b).pointer,
          (s.tables.entry i).state = .live ∨ (s.tables.entry i).state = .suspended →
          (t.tables.entry i).state = .damaged ∧ (t.tables.entry i).deadline = none ∧
          (t.tables.entry i).reasons.damaged = true ∧
          (∀ x ∈ t.tables.expiryQueue, x.2 ≠ i) ∧
          ∀ p k h, t.tables.hold p k = .held h → h.index ≠ i ∧ h.resolved ≠ i) ∧
        (∀ p, BrokenInOrder .damaged (s.tables.queueOf p) (t.tables.queueOf p)) ∧
        (PinLaw s.tables → BreaksHolds .damaged s.tables t.tables (lostTokens s.tables b (s.bank b).pointer)) ∧
        pick t.tables.bankLoss b = true ∧
        (pick s.tables.bankLoss b = false → Subject.bank b ∈ t.tables.notices) ∧
        t = { s with
          banks := t.banks
          storage := t.storage
          freeCount := s.freeCount + 1
          tables := t.tables })

/-- A free place of a bank at work is granted to the engine first; with the engine not waiting, to the
longest waiting slot of the first port with one, in ascending order from the port after the last one granted,
wrapping from 7 to 0. With no free place nothing changes (R142, R151, R152, R153). -/
def Obligations.AdmissionGrantsInOrder : Prop :=
  ∀ (s : State) (b : BankId),
    (12 ≤ (s.bank b).queue.length → exec (.admissionGrant b) s = .next s) ∧
    ((s.bank b).queue.length < 12 →
      (s.bank b).controller = .busy ∨ (s.bank b).controller = .refreshing →
      (∀ (job : Job) (e : Progress), (s.bank b).engineWaiting = some job → s.engine = some e →
        exec (.admissionGrant b) s = .next { s with
          banks := place s.banks b { s.bank b with
            engineWaiting := none, queue := (s.bank b).queue ++ [job] }
          engine := some { e with phase := .job } }) ∧
      (∀ (n : Fin 8) (g : Tag) (gs : List Tag) (x : CheckSlot) (job : Job),
        (s.bank b).engineWaiting = none →
        let p := (s.bank b).lastGranted + 1 + n
        (∀ m : Fin 8, m < n → pick (s.bank b).slotsWaiting ((s.bank b).lastGranted + 1 + m) = []) →
        pick (s.bank b).slotsWaiting p = g :: gs → s.slot p g = some x →
        (x.targetRead = none → job = .bodyRead x.named.index x.named.generation (.slot p g)) →
        (∀ r, x.targetRead = some r → job = .bodyRead r.index r.generation (.slot p g)) →
        exec (.admissionGrant b) s = .next (State.setSlot { s with
          banks := place s.banks b { s.bank b with
            slotsWaiting := place (s.bank b).slotsWaiting p gs
            lastGranted := p
            queue := (s.bank b).queue ++ [job] } } p g (some { x with phase := .reading })))) ∧
    ((s.bank b).engineWaiting = none → (∀ p, pick (s.bank b).slotsWaiting p = []) →
      exec (.admissionGrant b) s = .next s)

/-! ## Time (chapters 3 and 5) -/

/-- An epoch tick: the epoch advances by 1 and stays at 2^48 - 1; the next interval begins at the period in
force; no due record is left at the head of the expiry queue. Where the queue stands in order of deadline, no due
entry is left anywhere in it, and every due LIVE or SUSPENDED record is FREE or DRAINING after the tick, with
EXPIRED raised on it unless it is an alias of another due record, whose cascade can reach it first. With no due
entry no table changes. No hold, port, frame, slot or bank changes. No tick is taken while the tick timer does
not run (R97, R98, R100, R103, R104, R105). -/
def Obligations.EpochTickAdvances : Prop :=
  ∀ s : State,
    (s.tickInterval = none → exec .epochTick s = .next s) ∧
    (s.tickInterval ≠ none → ∃ t, exec .epochTick s = .next t ∧
      t.epoch.toNat = min (s.epoch.toNat + 1) (2 ^ 48 - 1) ∧
      (∀ d i rest, t.tables.expiryQueue = (d, i) :: rest → t.epoch < d) ∧
      ((s.tables.expiryQueue.map Prod.fst).Pairwise (· ≤ ·) →
        ∀ x ∈ t.tables.expiryQueue, t.epoch < x.1) ∧
      ((s.tables.expiryQueue.map Prod.fst).Pairwise (· ≤ ·) →
        ∀ d i, (d, i) ∈ s.tables.expiryQueue → d ≤ t.epoch →
          (s.tables.entry i).state = .live ∨ (s.tables.entry i).state = .suspended →
          ((t.tables.entry i).state = .free ∨ (t.tables.entry i).state = .draining) ∧
          ((∀ d' j, (d', j) ∈ s.tables.expiryQueue → d' ≤ t.epoch →
              i ∉ (s.tables.entry j).aliases) →
            (t.tables.entry i).reasons.expired = true)) ∧
      ((∀ x ∈ s.tables.expiryQueue, t.epoch < x.1) → t.tables = s.tables) ∧
      t.tables.expiryQueue.Sublist s.tables.expiryQueue ∧
      t.tables.holds = s.tables.holds ∧ t.tables.fillOrder = s.tables.fillOrder ∧
      t.tables.ports = s.tables.ports ∧ t.tables.outbound = s.tables.outbound ∧
      t.tables.portNotices = s.tables.portNotices ∧ t.tables.domainClosed = s.tables.domainClosed ∧
      t.tables.bankLoss = s.tables.bankLoss ∧
      t = { s with
        epoch := t.epoch
        tickInterval := some s.tickPeriod
        expiryPass := false
        tables := t.tables })

/-- The expiry of the record at the head of the expiry queue, in the expiry pass of a tick (the pass is the
model's own state, log entry 6): EXPIRED is raised on it and it is retired with cascade and without break, so
that it and its aliases are DRAINING or FREE and no hold changes. With no alias it is DRAINING while pins
remain, and otherwise FREE at the next generation, parked, and counted out of its domain. Outside the pass, or
with a head that is not due, nothing changes (R12, R15, R17, R89, R90, R103, R104). -/
def Obligations.RecordExpiryRetires : Prop :=
  ∀ s : State,
    (s.expiryPass = false ∨ (∀ d i rest, s.tables.expiryQueue = (d, i) :: rest → s.epoch < d) →
      exec .recordExpiry s = .next s) ∧
    ∀ (d : Epoch) (i : Index) (rest : List (Epoch × Index)) (e : StatusEntry) (g : Option Generation),
      s.expiryPass = true → s.tables.expiryQueue = (d, i) :: rest → d ≤ s.epoch →
      e = s.tables.entry i → (e.state = .live ∨ e.state = .suspended) →
      g = (if e.reasons = ⟨false, false, false, false⟩ then some e.generation else e.noticeGen) →
      ∃ t, exec .recordExpiry s = .next t ∧
        ((t.tables.entry i).state = .free ∨ (t.tables.entry i).state = .draining) ∧
        (t.tables.entry i).reasons.expired = true ∧
        (∀ x ∈ t.tables.expiryQueue, x.2 ≠ i) ∧
        (∀ a ∈ e.aliases, ((s.tables.entry a).state = .live ∨ (s.tables.entry a).state = .suspended ∨
            (s.tables.entry a).state = .damaged) →
          (t.tables.entry a).state = .free ∨ (t.tables.entry a).state = .draining) ∧
        t.tables.holds = s.tables.holds ∧ t.tables.outbound = s.tables.outbound ∧
        t = { s with tables := t.tables } ∧
        (e.aliases = [] → 0 < e.pins →
          t.tables.entry i = { e with
            state := .draining, deadline := none,
            reasons := { e.reasons with expired := true }, noticeGen := g } ∧
          (∀ j, j ≠ i → t.tables.entry j = s.tables.entry j) ∧
          t.tables = { s.tables with
            rst := t.tables.rst
            expiryQueue := s.tables.expiryQueue.filter fun x => x.2 != i
            notices := s.tables.notices ++
              if e.reasons = ⟨false, false, false, false⟩ then [.record i] else [] }) ∧
        (e.aliases = [] → e.pins = 0 →
          (∀ tg, e.target = some tg → tg ≠ i ∧ (s.tables.entry tg).state ≠ .draining) →
          t.tables.entry i = { StatusEntry.freeAt (e.generation + 1) with
            reasons := { e.reasons with expired := true }, noticeGen := g } ∧
          (∀ j, j ≠ i → t.tables.entry j = { s.tables.entry j with
            aliases := if e.target = some j then (s.tables.entry j).aliases.erase i
              else (s.tables.entry j).aliases }) ∧
          (∀ dm, t.tables.domain dm = { s.tables.domain dm with
            count := if e.domain = some dm then (s.tables.domain dm).count - 1
              else (s.tables.domain dm).count }) ∧
          t.tables = { s.tables with
            rst := t.tables.rst
            domains := t.tables.domains
            expiryQueue := s.tables.expiryQueue.filter fun x => x.2 != i
            notices := s.tables.notices ++
              if e.reasons = ⟨false, false, false, false⟩ then [.record i] else [] })

/-- The hold timer of a HELD entry expires: the entry becomes BROKEN with reason TIMEOUT and leaves the fill
order, and a BROKEN frame is placed where the port is ACTIVE or FENCED. On records that are LIVE or SUSPENDED
the pins fall, the writer a WRITE hold stood for becomes absent, and PIN_BROKEN is raised on the record
named. An entry that is not HELD has no timer, and nothing changes (R50, R52, R53, R55, R60, R61, R63,
R64). -/
def Obligations.HoldTimerBreaks : Prop :=
  ∀ (s : State) (p : PortId) (k : Token),
    ((∀ h, s.tables.hold p k ≠ .held h) → exec (.holdTimerExpiry p k) s = .next s) ∧
    ∀ h : HeldHold, s.tables.hold p k = .held h →
      ∃ t, exec (.holdTimerExpiry p k) s = .next t ∧
        (∀ p' k', t.tables.hold p' k' =
          if p' = p ∧ k' = k then
            .broken .timeout
              (decide ((s.tables.port p).state = .active ∨ (s.tables.port p).state = .fenced))
          else s.tables.hold p' k') ∧
        t.tables.fillOrder = s.tables.fillOrder.erase (p, k) ∧
        (∀ p', t.tables.queueOf p' = s.tables.queueOf p' ++
          if p' = p ∧ ((s.tables.port p).state = .active ∨ (s.tables.port p).state = .fenced) then
            [.broken k .timeout] else []) ∧
        t.tables.ports = s.tables.ports ∧ t = { s with tables := t.tables } ∧
        (((s.tables.entry h.index).state = .live ∨ (s.tables.entry h.index).state = .suspended) →
          ((s.tables.entry h.resolved).state = .live ∨
            (s.tables.entry h.resolved).state = .suspended) →
          (∀ i, t.tables.entry i =
            { s.tables.entry i with
              pins := if i = h.index ∨ i = h.resolved then (s.tables.entry i).pins - 1
                      else (s.tables.entry i).pins
              writer := if i = h.resolved ∧ h.access = .write then none
                        else (s.tables.entry i).writer
              reasons := if i = h.index then { (s.tables.entry i).reasons with pinBroken := true }
                         else (s.tables.entry i).reasons
              noticeGen :=
                if i = h.index ∧ (s.tables.entry i).reasons = ⟨false, false, false, false⟩ then
                  some (s.tables.entry i).generation
                else (s.tables.entry i).noticeGen }) ∧
          t.tables = { s.tables with
            rst := t.tables.rst, holds := t.tables.holds, fillOrder := t.tables.fillOrder,
            outbound := t.tables.outbound,
            notices := s.tables.notices ++
              if (s.tables.entry h.index).reasons = ⟨false, false, false, false⟩ then
                [.record h.index] else [] })

/-! ## Completions and walks (chapters 1, 7 and 10) -/

/-- A DRAINING record with no pin and no alias completes: DRAINED is raised, it becomes FREE at the next
generation and parked, its domain's count falls, and it leaves its target's alias list; a DRAINING target whose
last reason to stay this was completes in the same claim. Any other record is left as it is. The release or the
timeout of the last pin of a DRAINING record with no alias completes it in its own claim (R13, R15, R17, R55,
R57, R61). -/
def Obligations.DrainingCompletes : Prop :=
  (∀ (s : State) (i : Index),
    ((s.tables.entry i).state ≠ .draining ∨ 0 < (s.tables.entry i).pins ∨
        (s.tables.entry i).aliases ≠ [] →
      exec (.drainingCompletion i) s = .next s) ∧
    ∀ (e : StatusEntry) (g : Option Generation), e = s.tables.entry i → e.state = .draining →
      e.pins = 0 → e.aliases = [] → (∀ tg, e.target = some tg → tg ≠ i) →
      g = (if e.reasons = ⟨false, false, false, false⟩ then some e.generation else e.noticeGen) →
      ∃ t, exec (.drainingCompletion i) s = .next t ∧
        t.tables.entry i = { StatusEntry.freeAt (e.generation + 1) with
          reasons := { e.reasons with drained := true }, noticeGen := g } ∧
        t.tables.freeList = s.tables.freeList ∧ t.tables.holds = s.tables.holds ∧
        t = { s with tables := t.tables } ∧
        ((∀ tg, e.target = some tg → (s.tables.entry tg).state ≠ .draining) →
          (∀ j, j ≠ i → t.tables.entry j = { s.tables.entry j with
            aliases := if e.target = some j then (s.tables.entry j).aliases.erase i
              else (s.tables.entry j).aliases }) ∧
          (∀ dm, t.tables.domain dm = { s.tables.domain dm with
            count := if e.domain = some dm then (s.tables.domain dm).count - 1
              else (s.tables.domain dm).count }) ∧
          t.tables = { s.tables with
            rst := t.tables.rst
            domains := t.tables.domains
            notices := s.tables.notices ++
              if e.reasons = ⟨false, false, false, false⟩ then [.record i] else [] }) ∧
        (∀ tg, e.target = some tg → (s.tables.entry tg).state = .draining →
          (s.tables.entry tg).pins = 0 → (s.tables.entry tg).aliases = [i] →
          (t.tables.entry tg).state = .free ∧
          (t.tables.entry tg).generation = (s.tables.entry tg).generation + 1 ∧
          (t.tables.entry tg).reasons.drained = true)) ∧
  (∀ (s : State) (p : PortId) (k : Token) (h : HeldHold) (e : StatusEntry),
    s.tables.hold p k = .held h → h.resolved = h.index → e = s.tables.entry h.index →
    e.state = .draining → e.pins = 1 → e.aliases = [] → e.target = none →
    (∃ t, exec (.holdTimerExpiry p k) s = .next t ∧
      (t.tables.entry h.index).state = .free ∧
      (t.tables.entry h.index).generation = e.generation + 1 ∧
      (t.tables.entry h.index).reasons.drained = true ∧
      (t.tables.entry h.index).reasons.pinBroken = true) ∧
    ∀ f : ReleaseFrame, s.hears p → (s.tables.port p).state ≠ .resetting →
      s.outstanding p f.tag = false → f.token.toNat = k.val →
      ∃ t, exec (.release p f) s = .next t ∧ t.tables.hold p k = .empty ∧
        t.tables.queueOf p = s.tables.queueOf p ++ [.answer f.tag (.released f.token)] ∧
        (t.tables.entry h.index).state = .free ∧
        (t.tables.entry h.index).generation = e.generation + 1 ∧
        (t.tables.entry h.index).reasons.drained = true ∧
        (t.tables.entry h.index).reasons.pinBroken = e.reasons.pinBroken)

/-- One visit of the domain close sweep. A record of the domain that is LIVE, SUSPENDED or DAMAGED is retired
with cascade and break, as `Retires` says and as a REVOKE with both flags does: it is FREE or DRAINING and out of the
expiry queue, each hold resting on it or on an alias retired with it is BROKEN with reason REVOKED and no other entry
changes, and its LIVE, SUSPENDED and DAMAGED aliases are FREE or DRAINING. The BROKEN frames of a port stand in token
order (the model's choice where R63 and R66 meet, log entry 28). Any other record is passed over. The visit of index
4095 makes the domain CLOSED with quota 0 and raises CLOSED on it (R12, R63, R66, R89, R90, R101, R128, R129). -/
def Obligations.SweepVisitRetires : Prop :=
  ∀ s : State,
    (s.sweep = none → exec .sweepVisit s = .next s) ∧
    ∀ (d : DomainId) (i : Index), s.sweep = some ⟨d, i⟩ →
      ∃ t, exec .sweepVisit s = .next t ∧
        t.sweep = (if i = 4095 then none else some ⟨d, i + 1⟩) ∧
        t = { s with sweep := t.sweep, tables := t.tables } ∧
        ((s.tables.entry i).domain = some d →
          (s.tables.entry i).state = .live ∨ (s.tables.entry i).state = .suspended ∨
            (s.tables.entry i).state = .damaged →
          Retires true true i s.tables t.tables) ∧
        ((s.tables.entry i).domain ≠ some d ∨ (s.tables.entry i).state = .free ∨
            (s.tables.entry i).state = .pending ∨ (s.tables.entry i).state = .draining →
          t.tables =
            if i = 4095 then { s.tables with
              domains := place s.tables.domains d ⟨.closed, 0, (s.tables.domain d).count⟩
              domainClosed := place s.tables.domainClosed d true
              notices := s.tables.notices ++
                if pick s.tables.domainClosed d = true then [] else [.domain d] }
            else s.tables) ∧
        (i = 4095 → (t.tables.domain d).state = .closed ∧ (t.tables.domain d).quota = 0 ∧
          pick t.tables.domainClosed d = true) ∧
        ∀ d', d' ≠ d ∨ i ≠ 4095 → (t.tables.domain d').state = (s.tables.domain d').state ∧
          (t.tables.domain d').quota = (s.tables.domain d').quota

/-- One visit of the clearing walk: the index visited is FREE at the next generation with every field absent
and no reason, and stands at the tail of the free list, there alone. Where the records keep their laws: a record
leaves its target's alias list, and nothing else of the target changes (no test for completion, log entry 29); its
aliases are FREE at their own generations and join the free list in their order; the domain's count of each record
freed falls by 1, and the quota of a domain 0 to 14 with it; their RECORD subjects leave the Notice List; no other
record changes. The visit of index 4095 makes the part READY and answers TABLE_RESET DONE (R119, R186). -/
def Obligations.ClearingWalkFrees : Prop :=
  ∀ s : State,
    (s.clearWalk = none → exec .clearingWalkVisit s = .next s) ∧
    ∀ (i : Index) (e : StatusEntry), s.clearWalk = some i → i ≠ 0 → e = s.tables.entry i →
      ∃ t, exec .clearingWalkVisit s = .next t ∧
        t.tables.entry i = .freeAt (e.generation + 1) ∧
        (∃ l, t.tables.freeList = l ++ [i] ∧ i ∉ l) ∧
        (e.reasons ≠ ⟨false, false, false, false⟩ → Subject.record i ∉ t.tables.notices) ∧
        (e.state ≠ .free → ∀ a ∈ e.aliases, a ≠ i →
          t.tables.entry a = .freeAt (s.tables.entry a).generation ∧
          Subject.record a ∉ t.tables.notices) ∧
        (EntryLaw s.tables → AliasLaw s.tables →
          (∀ j, j ∉ i :: e.aliases → t.tables.entry j = { s.tables.entry j with
            aliases := if e.target = some j then (s.tables.entry j).aliases.erase i
              else (s.tables.entry j).aliases }) ∧
          (∀ dm, t.tables.domain dm =
            let n := ((i :: e.aliases).filter fun x => decide ((s.tables.entry x).domain = some dm)).length
            { s.tables.domain dm with
              count := (s.tables.domain dm).count - n
              quota := if dm = 15 ∨ n = 0 then (s.tables.domain dm).quota
                else (s.tables.domain dm).count - n }) ∧
          t.tables.freeList =
            ((s.tables.freeList ++ e.aliases).filter fun x => x != i) ++ [i] ∧
          t.tables.expiryQueue =
            s.tables.expiryQueue.filter (fun x => decide (x.2 ∉ i :: e.aliases)) ∧
          (s.NoticeLaw → t.tables.notices =
            s.tables.notices.filter fun x => decide (∀ a ∈ i :: e.aliases, x ≠ .record a)) ∧
          t.tables = { s.tables with
            rst := t.tables.rst
            domains := t.tables.domains
            freeList := t.tables.freeList
            expiryQueue := t.tables.expiryQueue
            notices := t.tables.notices }) ∧
        (i ≠ 4095 → t = { s with clearWalk := some (i + 1), tables := t.tables }) ∧
        (i = 4095 → ∀ x : Progress, s.engine = some x →
          t = { s with
            clearWalk := none
            partState := .ready
            tables := t.tables
            iface := .answerReady
            answerBuffer := some ⟨.done, requestKind x.request, []⟩
            engine := some { x with phase := .answered } })

/-! ## The laws -/

/-- The state right after reset is what the release of RESET_N leaves of the part held in reset (that the model's
reset state is the part at that moment is its choice, log entry 1), with every outward lane carrying IDLE symbols,
and it keeps every law, the law of the entries while STARTING among them, which with the full free list of that
moment is the model's choice (log entry 16). -/
def Obligations.LawsAtReset : Prop :=
  exec .resetNRelease (State.heldInReset 0 []) = .next State.reset ∧
  (∀ p, State.reset.outwardLane p = .symbols [.idle]) ∧
  State.reset.NoticeLaw ∧ State.reset.Canonical ∧ State.reset.PagesClean ∧ State.reset.BanksLaw ∧
    State.reset.PartLaw ∧ State.reset.DomainLaw ∧ State.reset.EngineLaw ∧ State.reset.LinkLaw ∧
    State.reset.RecordLaws

/-- Every step keeps the law of the Notice List: it holds exactly the subjects that owe a notice, each once
(R110). -/
def Obligations.NoticeLawKept : Prop :=
  ∀ s t : State, s.NoticeLaw → step s = .next t → t.NoticeLaw

/-- Every step keeps the law of the banks: debt at most 8, at most 12 jobs, and the page buffer, the head job
and the page under refresh as the controller's state says (R142, R143, R151, R156). -/
def Obligations.BanksLawKept : Prop :=
  ∀ s t : State, s.BanksLaw → step s = .next t → t.BanksLaw

/-- Every step keeps the canonical form of the sparse tables, and a page buffer that is not dirty agrees with
storage (R142, R146). -/
def Obligations.StoreLawKept : Prop :=
  ∀ s t : State, s.Canonical → s.PagesClean → step s = .next t → t.Canonical ∧ t.PagesClean

/-- Every step keeps the laws of reservations, of the fill order and of the outbound queues; under them no
outbound queue holds more than 24 frames (R27, R51, R59, R165, R168). -/
def Obligations.LinkLawKept : Prop :=
  (∀ s t : State, s.LinkLaw → step s = .next t → t.LinkLaw) ∧
  ∀ (s : State) (p : PortId), s.LinkLaw → (s.tables.queueOf p).length ≤ 24

/-- Every step keeps the law of the part state, that of the Domain Directory's states (domain 15 is OPEN, and a
domain is CLOSING exactly while the sweep runs for it), and that of the Management Engine (one of its jobs at most is
at the banks, and only while the interface is WORKING and the part READY; in CLEARING it executes the TABLE_RESET)
(R74, R75, R121, R126, R128, R179, R180, R181, R185, R186). -/
def Obligations.PartAndDomainLawKept : Prop :=
  (∀ s t : State, s.PartLaw → step s = .next t → t.PartLaw) ∧
  (∀ s t : State, s.PartLaw → s.DomainLaw → step s = .next t → t.DomainLaw) ∧
  ∀ s t : State, s.PartLaw → s.EngineLaw → step s = .next t → t.EngineLaw

/-- Every step keeps the fields of each status entry in line with its state, its notice generation among them, and
the law of the alias lists: a record's list holds exactly the records whose target it is, each once, at most 15. A
DRAINING record has pins or an alias outside CLEARING (that it need not in CLEARING is the model's choice, log
entry 29), a record that the clearing walk has visited is FREE, and while the part is STARTING every status entry is
as R21 has it after reset: FREE at generation 0, with every other field absent or empty. That it is so from the
assertion of RESET_N on, before the start-up walk sets it, is the model's choice (log entry 16) (R3, R13, R14, R15,
R18, R21, R112, R181, R186). -/
def Obligations.EntryAndAliasLawKept : Prop :=
  ∀ s t : State, s.AllLaws → step s = .next t →
    EntryLaw t.tables ∧ AliasLaw t.tables ∧ DrainingLaw t ∧ ClearedLaw t ∧ StartingBlank t

/-- Every step keeps the law of the free list, which holds exactly the FREE indices other than 0 that owe no notice,
each once, and that of the domain counts: a count is the number of the domain's records that are not FREE (R16,
R17, R121, R122). -/
def Obligations.FreeListAndCountsKept : Prop :=
  ∀ s t : State, s.AllLaws → step s = .next t → FreeListLaw t.tables ∧ CountLaw t.tables

/-- Every step keeps the law of the pins, which count the HELD entries resting on a record and are at most 15, that
of the writer, which is the port of a HELD entry with WRITE access, and that of the HELD entries, which name a LIVE,
SUSPENDED or DRAINING record at the generation they record; while the part is CLEARING no entry is HELD (R27, R52,
R53, R56, R69). -/
def Obligations.PinsAndWritersKept : Prop :=
  ∀ s t : State, s.AllLaws → step s = .next t →
    PinLaw t.tables ∧ WriterLaw t.tables ∧ HeldLaw t.tables ∧ ReservedByHold t ∧ ClearingUnheld t

/-- Every step keeps the law of the expiry queue: it holds exactly the records that have a deadline, each once and
with that deadline, in order of deadline, and they are LIVE or SUSPENDED (R99). -/
def Obligations.ExpiryQueueKept : Prop :=
  ∀ s t : State, s.AllLaws → step s = .next t → ExpiryLaw t.tables
end

