-- ==== Sys2Proof/Laws/Bytes.lean ====
section
/-! SUPPORT. The bytes of a word give the word back, and the frame of a request is read as that request. -/

namespace Sys2Proof.Machine

@[simp] theorem byteAt_cons_zero (b : Byte) (l : List Byte) : byteAt (b :: l) 0 = b := rfl

@[simp] theorem byteAt_cons_succ (b : Byte) (l : List Byte) (n : Nat) :
    byteAt (b :: l) (n + 1) = byteAt l n := rfl

@[simp] theorem length_bytes2 (x : BitVec 16) : (bytes2 x).length = 2 := rfl

@[simp] theorem length_withCrc (l : List Byte) : (withCrc l).length = l.length + 2 := by
  simp [withCrc]

/-! ## A word of its bytes -/

theorem word2 (x : BitVec 16) : x.extractLsb' 8 8 ++ x.extractLsb' 0 8 = x := by
  rw [BitVec.extractLsb'_append_extractLsb'_eq_extractLsb' (show 8 = 0 + 8 from rfl),
    BitVec.extractLsb'_eq_self]

theorem wordAt_bytes2 (x : BitVec 16) (l : List Byte) : wordAt (bytes2 x ++ l) 0 = x := word2 x

theorem word4 (x : BitVec 32) :
    x.extractLsb' 24 8 ++ x.extractLsb' 16 8 ++ x.extractLsb' 8 8 ++ x.extractLsb' 0 8 = x := by
  rw [BitVec.extractLsb'_append_extractLsb'_eq_extractLsb' (show 24 = 16 + 8 from rfl),
    BitVec.extractLsb'_append_extractLsb'_eq_extractLsb' (show 16 = 8 + 8 from rfl),
    BitVec.extractLsb'_append_extractLsb'_eq_extractLsb' (show 8 = 0 + 8 from rfl),
    BitVec.extractLsb'_eq_self]

theorem word5 (x : BitVec 40) :
    x.extractLsb' 32 8 ++ x.extractLsb' 24 8 ++ x.extractLsb' 16 8 ++ x.extractLsb' 8 8 ++
      x.extractLsb' 0 8 = x := by
  rw [BitVec.extractLsb'_append_extractLsb'_eq_extractLsb' (show 32 = 24 + 8 from rfl),
    BitVec.extractLsb'_append_extractLsb'_eq_extractLsb' (show 24 = 16 + 8 from rfl),
    BitVec.extractLsb'_append_extractLsb'_eq_extractLsb' (show 16 = 8 + 8 from rfl),
    BitVec.extractLsb'_append_extractLsb'_eq_extractLsb' (show 8 = 0 + 8 from rfl),
    BitVec.extractLsb'_eq_self]

theorem word6 (x : BitVec 48) :
    x.extractLsb' 40 8 ++ x.extractLsb' 32 8 ++ x.extractLsb' 24 8 ++ x.extractLsb' 16 8 ++
      x.extractLsb' 8 8 ++ x.extractLsb' 0 8 = x := by
  rw [BitVec.extractLsb'_append_extractLsb'_eq_extractLsb' (show 40 = 32 + 8 from rfl),
    BitVec.extractLsb'_append_extractLsb'_eq_extractLsb' (show 32 = 24 + 8 from rfl),
    BitVec.extractLsb'_append_extractLsb'_eq_extractLsb' (show 24 = 16 + 8 from rfl),
    BitVec.extractLsb'_append_extractLsb'_eq_extractLsb' (show 16 = 8 + 8 from rfl),
    BitVec.extractLsb'_append_extractLsb'_eq_extractLsb' (show 8 = 0 + 8 from rfl),
    BitVec.extractLsb'_eq_self]

/-! ## A request of its kind and argument bytes -/

/-- The argument bytes of a request are as many as its kind has. -/
theorem argLength_requestArgs (r : Request) :
    argLength (requestKind r) = some (requestArgs r).length := by
  cases r <;> rfl

theorem length_requestArgs_lt (r : Request) : (requestArgs r).length < 256 := by
  cases r <;> simp [requestArgs, bytes2, bytes4, bytes5, bytes6]

/-- The layout of R190 loses nothing: kind and arguments give the request back, whatever follows. -/
theorem requestOf_requestArgs (r : Request) (l : List Byte) :
    requestOf (requestKind r) (requestArgs r ++ l) = some r := by
  cases r with
  | info | status | fetchNotice | tableReset => rfl
  | unbindPort a | portReset a | closeDomain a => rfl
  | configure a =>
    show some (Request.configure ⟨a.period.extractLsb' 8 8 ++ a.period.extractLsb' 0 8, _⟩) = _
    rw [word2]; rfl
  | bindPort a =>
    show some (Request.bindPort ⟨_, _, _, a.holdLimit.extractLsb' 8 8 ++ a.holdLimit.extractLsb' 0 8⟩) = _
    rw [word2]; rfl
  | openDomain a =>
    show some (Request.openDomain ⟨_, a.quota.extractLsb' 8 8 ++ a.quota.extractLsb' 0 8⟩) = _
    rw [word2]; rfl
  | setQuota a =>
    show some (Request.setQuota ⟨_, a.quota.extractLsb' 8 8 ++ a.quota.extractLsb' 0 8⟩) = _
    rw [word2]; rfl
  | establishData a =>
    simp [requestOf, requestArgs, requestKind, wordAt, wordAt5, wordAt6, byteAt, bytes2, bytes5, bytes6,
      word2, word5, word6]
  | establishAlias a =>
    simp [requestOf, requestArgs, requestKind, wordAt, wordAt4, wordAt5, wordAt6, byteAt, bytes2, bytes4,
      bytes5, bytes6, word2, word4, word5, word6]
  | amend a =>
    simp [requestOf, requestArgs, requestKind, wordAt, wordAt5, wordAt6, byteAt, bytes2, bytes5, bytes6,
      word2, word5, word6]
  | suspend a =>
    simp [requestOf, requestArgs, requestKind, wordAt, byteAt, bytes2, word2]
  | resume a =>
    simp [requestOf, requestArgs, requestKind, wordAt, byteAt, bytes2, word2]
  | revoke a =>
    simp [requestOf, requestArgs, requestKind, wordAt, byteAt, bytes2, word2]
  | query a =>
    simp [requestOf, requestArgs, requestKind, wordAt, byteAt, bytes2, word2]

/-- A word read at the end of a prefix. -/
theorem wordAt_append (l m : List Byte) : wordAt (l ++ m) l.length = wordAt m 0 := by
  simp [wordAt, byteAt, List.getElem?_append_right]

/-- The frame of a request passes the frame check and is that request (R177). -/
theorem writeRequest_requestBody (r : Request) :
    State.writeRequest (withCrc (requestBody r)) = some r := by
  have hlen := length_requestArgs_lt r
  have hl : (byteNat (requestArgs r).length).toNat = (requestArgs r).length := by
    simp [byteNat, Nat.mod_eq_of_lt hlen]
  simp only [withCrc, requestBody, List.cons_append, State.writeRequest, argLength_requestArgs]
  rw [if_pos]
  · exact requestOf_requestArgs r _
  · refine ⟨hl, by simp [bytes2], ?_⟩
    rw [wordAt_append, List.take_left]
    simpa using wordAt_bytes2 (crc16 (requestKind r :: byteNat (requestArgs r).length :: requestArgs r)) []

end Sys2Proof.Machine
end

