-- ==== Sys2Proof/Laws/Word.lean ====
section
/-! SUPPORT. The laws of reading and replacing an item of a fixed row. -/

namespace Sys2Proof

variable {α : Type} {n : Nat}

@[simp] theorem pick_place_self (v : Vector α n) (i : Fin n) (x : α) : pick (place v i x) i = x := by
  simp [pick, place]

theorem pick_place_ne (v : Vector α n) (i j : Fin n) (x : α) (h : j ≠ i) :
    pick (place v i x) j = pick v j := by
  have h' : i.val ≠ j.val := fun e => h (Fin.ext e.symm)
  simp [pick, place, h']

/-- A read after a replacement, at the item replaced and at every other. -/
theorem pick_place (v : Vector α n) (i j : Fin n) (x : α) :
    pick (place v i x) j = if j = i then x else pick v j := by
  by_cases h : j = i
  · simp [h]
  · simp [h, pick_place_ne]

@[simp] theorem place_place (v : Vector α n) (i : Fin n) (x y : α) :
    place (place v i x) i y = place v i y := by
  simp [place]

@[simp] theorem place_pick (v : Vector α n) (i : Fin n) : place v i (pick v i) = v := by
  simp [place, pick]

theorem place_of_pick_eq (v : Vector α n) (i : Fin n) (x : α) (h : pick v i = x) : place v i x = v := by
  simp [← h]

@[simp] theorem pick_replicate (x : α) (i : Fin n) : pick (Vector.replicate n x) i = x := by
  simp [pick]

/-- Two rows that agree at every item are equal. -/
theorem ext_pick (v w : Vector α n) (h : ∀ i, pick v i = pick w i) : v = w := by
  apply Vector.ext
  intro i hi
  exact h ⟨i, hi⟩

end Sys2Proof
end

