-- ==== Sys2Proof/Laws/State.lean ====
section
/-! SUPPORT. What each update of the state leaves as it was, one lemma for each field, and what it writes. -/

namespace Sys2Proof.Machine

namespace Tables

variable (T : Tables)

@[simp] theorem setDomain_rst (d : DomainId) (e : DomainEntry) : (T.setDomain d e).rst = T.rst := rfl
@[simp] theorem setDomain_freeList (d : DomainId) (e : DomainEntry) : (T.setDomain d e).freeList = T.freeList := rfl
@[simp] theorem setDomain_expiryQueue (d : DomainId) (e : DomainEntry) : (T.setDomain d e).expiryQueue = T.expiryQueue := rfl
@[simp] theorem setDomain_ports (d : DomainId) (e : DomainEntry) : (T.setDomain d e).ports = T.ports := rfl
@[simp] theorem setDomain_holds (d : DomainId) (e : DomainEntry) : (T.setDomain d e).holds = T.holds := rfl
@[simp] theorem setDomain_fillOrder (d : DomainId) (e : DomainEntry) : (T.setDomain d e).fillOrder = T.fillOrder := rfl
@[simp] theorem setDomain_notices (d : DomainId) (e : DomainEntry) : (T.setDomain d e).notices = T.notices := rfl
@[simp] theorem setDomain_portNotices (d : DomainId) (e : DomainEntry) : (T.setDomain d e).portNotices = T.portNotices := rfl
@[simp] theorem setDomain_domainClosed (d : DomainId) (e : DomainEntry) : (T.setDomain d e).domainClosed = T.domainClosed := rfl
@[simp] theorem setDomain_bankLoss (d : DomainId) (e : DomainEntry) : (T.setDomain d e).bankLoss = T.bankLoss := rfl
@[simp] theorem setDomain_outbound (d : DomainId) (e : DomainEntry) : (T.setDomain d e).outbound = T.outbound := rfl

@[simp] theorem setPort_rst (p : PortId) (e : PortEntry) : (T.setPort p e).rst = T.rst := rfl
@[simp] theorem setPort_freeList (p : PortId) (e : PortEntry) : (T.setPort p e).freeList = T.freeList := rfl
@[simp] theorem setPort_domains (p : PortId) (e : PortEntry) : (T.setPort p e).domains = T.domains := rfl
@[simp] theorem setPort_expiryQueue (p : PortId) (e : PortEntry) : (T.setPort p e).expiryQueue = T.expiryQueue := rfl
@[simp] theorem setPort_holds (p : PortId) (e : PortEntry) : (T.setPort p e).holds = T.holds := rfl
@[simp] theorem setPort_fillOrder (p : PortId) (e : PortEntry) : (T.setPort p e).fillOrder = T.fillOrder := rfl
@[simp] theorem setPort_notices (p : PortId) (e : PortEntry) : (T.setPort p e).notices = T.notices := rfl
@[simp] theorem setPort_portNotices (p : PortId) (e : PortEntry) : (T.setPort p e).portNotices = T.portNotices := rfl
@[simp] theorem setPort_domainClosed (p : PortId) (e : PortEntry) : (T.setPort p e).domainClosed = T.domainClosed := rfl
@[simp] theorem setPort_bankLoss (p : PortId) (e : PortEntry) : (T.setPort p e).bankLoss = T.bankLoss := rfl
@[simp] theorem setPort_outbound (p : PortId) (e : PortEntry) : (T.setPort p e).outbound = T.outbound := rfl

@[simp] theorem setHold_rst (p : PortId) (t : Token) (h : HoldEntry) : (T.setHold p t h).rst = T.rst := rfl
@[simp] theorem setHold_freeList (p : PortId) (t : Token) (h : HoldEntry) : (T.setHold p t h).freeList = T.freeList := rfl
@[simp] theorem setHold_domains (p : PortId) (t : Token) (h : HoldEntry) : (T.setHold p t h).domains = T.domains := rfl
@[simp] theorem setHold_expiryQueue (p : PortId) (t : Token) (h : HoldEntry) : (T.setHold p t h).expiryQueue = T.expiryQueue := rfl
@[simp] theorem setHold_ports (p : PortId) (t : Token) (h : HoldEntry) : (T.setHold p t h).ports = T.ports := rfl
@[simp] theorem setHold_fillOrder (p : PortId) (t : Token) (h : HoldEntry) : (T.setHold p t h).fillOrder = T.fillOrder := rfl
@[simp] theorem setHold_notices (p : PortId) (t : Token) (h : HoldEntry) : (T.setHold p t h).notices = T.notices := rfl
@[simp] theorem setHold_portNotices (p : PortId) (t : Token) (h : HoldEntry) : (T.setHold p t h).portNotices = T.portNotices := rfl
@[simp] theorem setHold_domainClosed (p : PortId) (t : Token) (h : HoldEntry) : (T.setHold p t h).domainClosed = T.domainClosed := rfl
@[simp] theorem setHold_bankLoss (p : PortId) (t : Token) (h : HoldEntry) : (T.setHold p t h).bankLoss = T.bankLoss := rfl
@[simp] theorem setHold_outbound (p : PortId) (t : Token) (h : HoldEntry) : (T.setHold p t h).outbound = T.outbound := rfl

@[simp] theorem setQueue_rst (p : PortId) (q : List OutFrame) : (T.setQueue p q).rst = T.rst := rfl
@[simp] theorem setQueue_freeList (p : PortId) (q : List OutFrame) : (T.setQueue p q).freeList = T.freeList := rfl
@[simp] theorem setQueue_domains (p : PortId) (q : List OutFrame) : (T.setQueue p q).domains = T.domains := rfl
@[simp] theorem setQueue_expiryQueue (p : PortId) (q : List OutFrame) : (T.setQueue p q).expiryQueue = T.expiryQueue := rfl
@[simp] theorem setQueue_ports (p : PortId) (q : List OutFrame) : (T.setQueue p q).ports = T.ports := rfl
@[simp] theorem setQueue_holds (p : PortId) (q : List OutFrame) : (T.setQueue p q).holds = T.holds := rfl
@[simp] theorem setQueue_fillOrder (p : PortId) (q : List OutFrame) : (T.setQueue p q).fillOrder = T.fillOrder := rfl
@[simp] theorem setQueue_notices (p : PortId) (q : List OutFrame) : (T.setQueue p q).notices = T.notices := rfl
@[simp] theorem setQueue_portNotices (p : PortId) (q : List OutFrame) : (T.setQueue p q).portNotices = T.portNotices := rfl
@[simp] theorem setQueue_domainClosed (p : PortId) (q : List OutFrame) : (T.setQueue p q).domainClosed = T.domainClosed := rfl
@[simp] theorem setQueue_bankLoss (p : PortId) (q : List OutFrame) : (T.setQueue p q).bankLoss = T.bankLoss := rfl

@[simp] theorem placeFrame_rst (p : PortId) (f : OutFrame) : (T.placeFrame p f).rst = T.rst := rfl
@[simp] theorem placeFrame_freeList (p : PortId) (f : OutFrame) : (T.placeFrame p f).freeList = T.freeList := rfl
@[simp] theorem placeFrame_domains (p : PortId) (f : OutFrame) : (T.placeFrame p f).domains = T.domains := rfl
@[simp] theorem placeFrame_expiryQueue (p : PortId) (f : OutFrame) : (T.placeFrame p f).expiryQueue = T.expiryQueue := rfl
@[simp] theorem placeFrame_ports (p : PortId) (f : OutFrame) : (T.placeFrame p f).ports = T.ports := rfl
@[simp] theorem placeFrame_holds (p : PortId) (f : OutFrame) : (T.placeFrame p f).holds = T.holds := rfl
@[simp] theorem placeFrame_fillOrder (p : PortId) (f : OutFrame) : (T.placeFrame p f).fillOrder = T.fillOrder := rfl
@[simp] theorem placeFrame_notices (p : PortId) (f : OutFrame) : (T.placeFrame p f).notices = T.notices := rfl
@[simp] theorem placeFrame_portNotices (p : PortId) (f : OutFrame) : (T.placeFrame p f).portNotices = T.portNotices := rfl
@[simp] theorem placeFrame_domainClosed (p : PortId) (f : OutFrame) : (T.placeFrame p f).domainClosed = T.domainClosed := rfl
@[simp] theorem placeFrame_bankLoss (p : PortId) (f : OutFrame) : (T.placeFrame p f).bankLoss = T.bankLoss := rfl

@[simp] theorem setPortNotice_rst (p : PortId) (n : PortNotice) : (T.setPortNotice p n).rst = T.rst := rfl
@[simp] theorem setPortNotice_freeList (p : PortId) (n : PortNotice) : (T.setPortNotice p n).freeList = T.freeList := rfl
@[simp] theorem setPortNotice_domains (p : PortId) (n : PortNotice) : (T.setPortNotice p n).domains = T.domains := rfl
@[simp] theorem setPortNotice_expiryQueue (p : PortId) (n : PortNotice) : (T.setPortNotice p n).expiryQueue = T.expiryQueue := rfl
@[simp] theorem setPortNotice_ports (p : PortId) (n : PortNotice) : (T.setPortNotice p n).ports = T.ports := rfl
@[simp] theorem setPortNotice_holds (p : PortId) (n : PortNotice) : (T.setPortNotice p n).holds = T.holds := rfl
@[simp] theorem setPortNotice_fillOrder (p : PortId) (n : PortNotice) : (T.setPortNotice p n).fillOrder = T.fillOrder := rfl
@[simp] theorem setPortNotice_domainClosed (p : PortId) (n : PortNotice) : (T.setPortNotice p n).domainClosed = T.domainClosed := rfl
@[simp] theorem setPortNotice_bankLoss (p : PortId) (n : PortNotice) : (T.setPortNotice p n).bankLoss = T.bankLoss := rfl
@[simp] theorem setPortNotice_outbound (p : PortId) (n : PortNotice) : (T.setPortNotice p n).outbound = T.outbound := rfl

@[simp] theorem raiseClosed_rst (d : DomainId) : (T.raiseClosed d).rst = T.rst := rfl
@[simp] theorem raiseClosed_freeList (d : DomainId) : (T.raiseClosed d).freeList = T.freeList := rfl
@[simp] theorem raiseClosed_domains (d : DomainId) : (T.raiseClosed d).domains = T.domains := rfl
@[simp] theorem raiseClosed_expiryQueue (d : DomainId) : (T.raiseClosed d).expiryQueue = T.expiryQueue := rfl
@[simp] theorem raiseClosed_ports (d : DomainId) : (T.raiseClosed d).ports = T.ports := rfl
@[simp] theorem raiseClosed_holds (d : DomainId) : (T.raiseClosed d).holds = T.holds := rfl
@[simp] theorem raiseClosed_fillOrder (d : DomainId) : (T.raiseClosed d).fillOrder = T.fillOrder := rfl
@[simp] theorem raiseClosed_portNotices (d : DomainId) : (T.raiseClosed d).portNotices = T.portNotices := rfl
@[simp] theorem raiseClosed_bankLoss (d : DomainId) : (T.raiseClosed d).bankLoss = T.bankLoss := rfl
@[simp] theorem raiseClosed_outbound (d : DomainId) : (T.raiseClosed d).outbound = T.outbound := rfl

@[simp] theorem raiseLoss_rst (b : BankId) : (T.raiseLoss b).rst = T.rst := rfl
@[simp] theorem raiseLoss_freeList (b : BankId) : (T.raiseLoss b).freeList = T.freeList := rfl
@[simp] theorem raiseLoss_domains (b : BankId) : (T.raiseLoss b).domains = T.domains := rfl
@[simp] theorem raiseLoss_expiryQueue (b : BankId) : (T.raiseLoss b).expiryQueue = T.expiryQueue := rfl
@[simp] theorem raiseLoss_ports (b : BankId) : (T.raiseLoss b).ports = T.ports := rfl
@[simp] theorem raiseLoss_holds (b : BankId) : (T.raiseLoss b).holds = T.holds := rfl
@[simp] theorem raiseLoss_fillOrder (b : BankId) : (T.raiseLoss b).fillOrder = T.fillOrder := rfl
@[simp] theorem raiseLoss_portNotices (b : BankId) : (T.raiseLoss b).portNotices = T.portNotices := rfl
@[simp] theorem raiseLoss_domainClosed (b : BankId) : (T.raiseLoss b).domainClosed = T.domainClosed := rfl
@[simp] theorem raiseLoss_outbound (b : BankId) : (T.raiseLoss b).outbound = T.outbound := rfl

end Tables

namespace State

variable (s : State)

@[simp] theorem setBank_resetAsserted (b : BankId) (k : Bank) : (s.setBank b k).resetAsserted = s.resetAsserted := rfl
@[simp] theorem setBank_partState (b : BankId) (k : Bank) : (s.setBank b k).partState = s.partState := rfl
@[simp] theorem setBank_startWalk (b : BankId) (k : Bank) : (s.setBank b k).startWalk = s.startWalk := rfl
@[simp] theorem setBank_clearWalk (b : BankId) (k : Bank) : (s.setBank b k).clearWalk = s.clearWalk := rfl
@[simp] theorem setBank_tables (b : BankId) (k : Bank) : (s.setBank b k).tables = s.tables := rfl
@[simp] theorem setBank_sweep (b : BankId) (k : Bank) : (s.setBank b k).sweep = s.sweep := rfl
@[simp] theorem setBank_alertEnable (b : BankId) (k : Bank) : (s.setBank b k).alertEnable = s.alertEnable := rfl
@[simp] theorem setBank_epoch (b : BankId) (k : Bank) : (s.setBank b k).epoch = s.epoch := rfl
@[simp] theorem setBank_tickPeriod (b : BankId) (k : Bank) : (s.setBank b k).tickPeriod = s.tickPeriod := rfl
@[simp] theorem setBank_tickInterval (b : BankId) (k : Bank) : (s.setBank b k).tickInterval = s.tickInterval := rfl
@[simp] theorem setBank_expiryPass (b : BankId) (k : Bank) : (s.setBank b k).expiryPass = s.expiryPass := rfl
@[simp] theorem setBank_slots (b : BankId) (k : Bank) : (s.setBank b k).slots = s.slots := rfl
@[simp] theorem setBank_receivers (b : BankId) (k : Bank) : (s.setBank b k).receivers = s.receivers := rfl
@[simp] theorem setBank_transmitters (b : BankId) (k : Bank) : (s.setBank b k).transmitters = s.transmitters := rfl
@[simp] theorem setBank_storage (b : BankId) (k : Bank) : (s.setBank b k).storage = s.storage := rfl
@[simp] theorem setBank_bodyEra (b : BankId) (k : Bank) : (s.setBank b k).bodyEra = s.bodyEra := rfl
@[simp] theorem setBank_freeCount (b : BankId) (k : Bank) : (s.setBank b k).freeCount = s.freeCount := rfl
@[simp] theorem setBank_iface (b : BankId) (k : Bank) : (s.setBank b k).iface = s.iface := rfl
@[simp] theorem setBank_refused (b : BankId) (k : Bank) : (s.setBank b k).refused = s.refused := rfl
@[simp] theorem setBank_requestBuffer (b : BankId) (k : Bank) : (s.setBank b k).requestBuffer = s.requestBuffer := rfl
@[simp] theorem setBank_answerBuffer (b : BankId) (k : Bank) : (s.setBank b k).answerBuffer = s.answerBuffer := rfl
@[simp] theorem setBank_engine (b : BankId) (k : Bank) : (s.setBank b k).engine = s.engine := rfl
@[simp] theorem setBank_msdo (b : BankId) (k : Bank) : (s.setBank b k).msdo = s.msdo := rfl
@[simp] theorem setBank_pending (b : BankId) (k : Bank) : (s.setBank b k).pending = s.pending := rfl

@[simp] theorem setSlot_resetAsserted (p : PortId) (t : Tag) (x : Option CheckSlot) : (s.setSlot p t x).resetAsserted = s.resetAsserted := rfl
@[simp] theorem setSlot_partState (p : PortId) (t : Tag) (x : Option CheckSlot) : (s.setSlot p t x).partState = s.partState := rfl
@[simp] theorem setSlot_startWalk (p : PortId) (t : Tag) (x : Option CheckSlot) : (s.setSlot p t x).startWalk = s.startWalk := rfl
@[simp] theorem setSlot_clearWalk (p : PortId) (t : Tag) (x : Option CheckSlot) : (s.setSlot p t x).clearWalk = s.clearWalk := rfl
@[simp] theorem setSlot_tables (p : PortId) (t : Tag) (x : Option CheckSlot) : (s.setSlot p t x).tables = s.tables := rfl
@[simp] theorem setSlot_sweep (p : PortId) (t : Tag) (x : Option CheckSlot) : (s.setSlot p t x).sweep = s.sweep := rfl
@[simp] theorem setSlot_alertEnable (p : PortId) (t : Tag) (x : Option CheckSlot) : (s.setSlot p t x).alertEnable = s.alertEnable := rfl
@[simp] theorem setSlot_epoch (p : PortId) (t : Tag) (x : Option CheckSlot) : (s.setSlot p t x).epoch = s.epoch := rfl
@[simp] theorem setSlot_tickPeriod (p : PortId) (t : Tag) (x : Option CheckSlot) : (s.setSlot p t x).tickPeriod = s.tickPeriod := rfl
@[simp] theorem setSlot_tickInterval (p : PortId) (t : Tag) (x : Option CheckSlot) : (s.setSlot p t x).tickInterval = s.tickInterval := rfl
@[simp] theorem setSlot_expiryPass (p : PortId) (t : Tag) (x : Option CheckSlot) : (s.setSlot p t x).expiryPass = s.expiryPass := rfl
@[simp] theorem setSlot_receivers (p : PortId) (t : Tag) (x : Option CheckSlot) : (s.setSlot p t x).receivers = s.receivers := rfl
@[simp] theorem setSlot_transmitters (p : PortId) (t : Tag) (x : Option CheckSlot) : (s.setSlot p t x).transmitters = s.transmitters := rfl
@[simp] theorem setSlot_storage (p : PortId) (t : Tag) (x : Option CheckSlot) : (s.setSlot p t x).storage = s.storage := rfl
@[simp] theorem setSlot_bodyEra (p : PortId) (t : Tag) (x : Option CheckSlot) : (s.setSlot p t x).bodyEra = s.bodyEra := rfl
@[simp] theorem setSlot_freeCount (p : PortId) (t : Tag) (x : Option CheckSlot) : (s.setSlot p t x).freeCount = s.freeCount := rfl
@[simp] theorem setSlot_banks (p : PortId) (t : Tag) (x : Option CheckSlot) : (s.setSlot p t x).banks = s.banks := rfl
@[simp] theorem setSlot_iface (p : PortId) (t : Tag) (x : Option CheckSlot) : (s.setSlot p t x).iface = s.iface := rfl
@[simp] theorem setSlot_refused (p : PortId) (t : Tag) (x : Option CheckSlot) : (s.setSlot p t x).refused = s.refused := rfl
@[simp] theorem setSlot_requestBuffer (p : PortId) (t : Tag) (x : Option CheckSlot) : (s.setSlot p t x).requestBuffer = s.requestBuffer := rfl
@[simp] theorem setSlot_answerBuffer (p : PortId) (t : Tag) (x : Option CheckSlot) : (s.setSlot p t x).answerBuffer = s.answerBuffer := rfl
@[simp] theorem setSlot_engine (p : PortId) (t : Tag) (x : Option CheckSlot) : (s.setSlot p t x).engine = s.engine := rfl
@[simp] theorem setSlot_msdo (p : PortId) (t : Tag) (x : Option CheckSlot) : (s.setSlot p t x).msdo = s.msdo := rfl
@[simp] theorem setSlot_pending (p : PortId) (t : Tag) (x : Option CheckSlot) : (s.setSlot p t x).pending = s.pending := rfl

@[simp] theorem onTables_tables (f : Tables → Tables) : (s.onTables f).tables = f s.tables := rfl
@[simp] theorem onTables_resetAsserted (f : Tables → Tables) : (s.onTables f).resetAsserted = s.resetAsserted := rfl
@[simp] theorem onTables_partState (f : Tables → Tables) : (s.onTables f).partState = s.partState := rfl
@[simp] theorem onTables_startWalk (f : Tables → Tables) : (s.onTables f).startWalk = s.startWalk := rfl
@[simp] theorem onTables_clearWalk (f : Tables → Tables) : (s.onTables f).clearWalk = s.clearWalk := rfl
@[simp] theorem onTables_sweep (f : Tables → Tables) : (s.onTables f).sweep = s.sweep := rfl
@[simp] theorem onTables_alertEnable (f : Tables → Tables) : (s.onTables f).alertEnable = s.alertEnable := rfl
@[simp] theorem onTables_epoch (f : Tables → Tables) : (s.onTables f).epoch = s.epoch := rfl
@[simp] theorem onTables_tickPeriod (f : Tables → Tables) : (s.onTables f).tickPeriod = s.tickPeriod := rfl
@[simp] theorem onTables_tickInterval (f : Tables → Tables) : (s.onTables f).tickInterval = s.tickInterval := rfl
@[simp] theorem onTables_expiryPass (f : Tables → Tables) : (s.onTables f).expiryPass = s.expiryPass := rfl
@[simp] theorem onTables_slots (f : Tables → Tables) : (s.onTables f).slots = s.slots := rfl
@[simp] theorem onTables_receivers (f : Tables → Tables) : (s.onTables f).receivers = s.receivers := rfl
@[simp] theorem onTables_transmitters (f : Tables → Tables) : (s.onTables f).transmitters = s.transmitters := rfl
@[simp] theorem onTables_storage (f : Tables → Tables) : (s.onTables f).storage = s.storage := rfl
@[simp] theorem onTables_bodyEra (f : Tables → Tables) : (s.onTables f).bodyEra = s.bodyEra := rfl
@[simp] theorem onTables_freeCount (f : Tables → Tables) : (s.onTables f).freeCount = s.freeCount := rfl
@[simp] theorem onTables_banks (f : Tables → Tables) : (s.onTables f).banks = s.banks := rfl
@[simp] theorem onTables_iface (f : Tables → Tables) : (s.onTables f).iface = s.iface := rfl
@[simp] theorem onTables_refused (f : Tables → Tables) : (s.onTables f).refused = s.refused := rfl
@[simp] theorem onTables_requestBuffer (f : Tables → Tables) : (s.onTables f).requestBuffer = s.requestBuffer := rfl
@[simp] theorem onTables_answerBuffer (f : Tables → Tables) : (s.onTables f).answerBuffer = s.answerBuffer := rfl
@[simp] theorem onTables_engine (f : Tables → Tables) : (s.onTables f).engine = s.engine := rfl
@[simp] theorem onTables_msdo (f : Tables → Tables) : (s.onTables f).msdo = s.msdo := rfl
@[simp] theorem onTables_pending (f : Tables → Tables) : (s.onTables f).pending = s.pending := rfl

@[simp] theorem writeStorage_resetAsserted (i : Index) (c : Cell) : (s.writeStorage i c).resetAsserted = s.resetAsserted := rfl
@[simp] theorem writeStorage_partState (i : Index) (c : Cell) : (s.writeStorage i c).partState = s.partState := rfl
@[simp] theorem writeStorage_startWalk (i : Index) (c : Cell) : (s.writeStorage i c).startWalk = s.startWalk := rfl
@[simp] theorem writeStorage_clearWalk (i : Index) (c : Cell) : (s.writeStorage i c).clearWalk = s.clearWalk := rfl
@[simp] theorem writeStorage_tables (i : Index) (c : Cell) : (s.writeStorage i c).tables = s.tables := rfl
@[simp] theorem writeStorage_sweep (i : Index) (c : Cell) : (s.writeStorage i c).sweep = s.sweep := rfl
@[simp] theorem writeStorage_alertEnable (i : Index) (c : Cell) : (s.writeStorage i c).alertEnable = s.alertEnable := rfl
@[simp] theorem writeStorage_epoch (i : Index) (c : Cell) : (s.writeStorage i c).epoch = s.epoch := rfl
@[simp] theorem writeStorage_tickPeriod (i : Index) (c : Cell) : (s.writeStorage i c).tickPeriod = s.tickPeriod := rfl
@[simp] theorem writeStorage_tickInterval (i : Index) (c : Cell) : (s.writeStorage i c).tickInterval = s.tickInterval := rfl
@[simp] theorem writeStorage_expiryPass (i : Index) (c : Cell) : (s.writeStorage i c).expiryPass = s.expiryPass := rfl
@[simp] theorem writeStorage_slots (i : Index) (c : Cell) : (s.writeStorage i c).slots = s.slots := rfl
@[simp] theorem writeStorage_receivers (i : Index) (c : Cell) : (s.writeStorage i c).receivers = s.receivers := rfl
@[simp] theorem writeStorage_transmitters (i : Index) (c : Cell) : (s.writeStorage i c).transmitters = s.transmitters := rfl
@[simp] theorem writeStorage_bodyEra (i : Index) (c : Cell) : (s.writeStorage i c).bodyEra = s.bodyEra := rfl
@[simp] theorem writeStorage_freeCount (i : Index) (c : Cell) : (s.writeStorage i c).freeCount = s.freeCount := rfl
@[simp] theorem writeStorage_banks (i : Index) (c : Cell) : (s.writeStorage i c).banks = s.banks := rfl
@[simp] theorem writeStorage_iface (i : Index) (c : Cell) : (s.writeStorage i c).iface = s.iface := rfl
@[simp] theorem writeStorage_refused (i : Index) (c : Cell) : (s.writeStorage i c).refused = s.refused := rfl
@[simp] theorem writeStorage_requestBuffer (i : Index) (c : Cell) : (s.writeStorage i c).requestBuffer = s.requestBuffer := rfl
@[simp] theorem writeStorage_answerBuffer (i : Index) (c : Cell) : (s.writeStorage i c).answerBuffer = s.answerBuffer := rfl
@[simp] theorem writeStorage_engine (i : Index) (c : Cell) : (s.writeStorage i c).engine = s.engine := rfl
@[simp] theorem writeStorage_msdo (i : Index) (c : Cell) : (s.writeStorage i c).msdo = s.msdo := rfl
@[simp] theorem writeStorage_pending (i : Index) (c : Cell) : (s.writeStorage i c).pending = s.pending := rfl

@[simp] theorem setReceiver_resetAsserted (p : PortId) (r : Receiver) : (s.setReceiver p r).resetAsserted = s.resetAsserted := rfl
@[simp] theorem setReceiver_partState (p : PortId) (r : Receiver) : (s.setReceiver p r).partState = s.partState := rfl
@[simp] theorem setReceiver_startWalk (p : PortId) (r : Receiver) : (s.setReceiver p r).startWalk = s.startWalk := rfl
@[simp] theorem setReceiver_clearWalk (p : PortId) (r : Receiver) : (s.setReceiver p r).clearWalk = s.clearWalk := rfl
@[simp] theorem setReceiver_tables (p : PortId) (r : Receiver) : (s.setReceiver p r).tables = s.tables := rfl
@[simp] theorem setReceiver_sweep (p : PortId) (r : Receiver) : (s.setReceiver p r).sweep = s.sweep := rfl
@[simp] theorem setReceiver_alertEnable (p : PortId) (r : Receiver) : (s.setReceiver p r).alertEnable = s.alertEnable := rfl
@[simp] theorem setReceiver_epoch (p : PortId) (r : Receiver) : (s.setReceiver p r).epoch = s.epoch := rfl
@[simp] theorem setReceiver_tickPeriod (p : PortId) (r : Receiver) : (s.setReceiver p r).tickPeriod = s.tickPeriod := rfl
@[simp] theorem setReceiver_tickInterval (p : PortId) (r : Receiver) : (s.setReceiver p r).tickInterval = s.tickInterval := rfl
@[simp] theorem setReceiver_expiryPass (p : PortId) (r : Receiver) : (s.setReceiver p r).expiryPass = s.expiryPass := rfl
@[simp] theorem setReceiver_slots (p : PortId) (r : Receiver) : (s.setReceiver p r).slots = s.slots := rfl
@[simp] theorem setReceiver_transmitters (p : PortId) (r : Receiver) : (s.setReceiver p r).transmitters = s.transmitters := rfl
@[simp] theorem setReceiver_storage (p : PortId) (r : Receiver) : (s.setReceiver p r).storage = s.storage := rfl
@[simp] theorem setReceiver_bodyEra (p : PortId) (r : Receiver) : (s.setReceiver p r).bodyEra = s.bodyEra := rfl
@[simp] theorem setReceiver_freeCount (p : PortId) (r : Receiver) : (s.setReceiver p r).freeCount = s.freeCount := rfl
@[simp] theorem setReceiver_banks (p : PortId) (r : Receiver) : (s.setReceiver p r).banks = s.banks := rfl
@[simp] theorem setReceiver_iface (p : PortId) (r : Receiver) : (s.setReceiver p r).iface = s.iface := rfl
@[simp] theorem setReceiver_refused (p : PortId) (r : Receiver) : (s.setReceiver p r).refused = s.refused := rfl
@[simp] theorem setReceiver_requestBuffer (p : PortId) (r : Receiver) : (s.setReceiver p r).requestBuffer = s.requestBuffer := rfl
@[simp] theorem setReceiver_answerBuffer (p : PortId) (r : Receiver) : (s.setReceiver p r).answerBuffer = s.answerBuffer := rfl
@[simp] theorem setReceiver_engine (p : PortId) (r : Receiver) : (s.setReceiver p r).engine = s.engine := rfl
@[simp] theorem setReceiver_msdo (p : PortId) (r : Receiver) : (s.setReceiver p r).msdo = s.msdo := rfl
@[simp] theorem setReceiver_pending (p : PortId) (r : Receiver) : (s.setReceiver p r).pending = s.pending := rfl

@[simp] theorem setTransmitter_resetAsserted (p : PortId) (x : Transmitter) : (s.setTransmitter p x).resetAsserted = s.resetAsserted := rfl
@[simp] theorem setTransmitter_partState (p : PortId) (x : Transmitter) : (s.setTransmitter p x).partState = s.partState := rfl
@[simp] theorem setTransmitter_startWalk (p : PortId) (x : Transmitter) : (s.setTransmitter p x).startWalk = s.startWalk := rfl
@[simp] theorem setTransmitter_clearWalk (p : PortId) (x : Transmitter) : (s.setTransmitter p x).clearWalk = s.clearWalk := rfl
@[simp] theorem setTransmitter_tables (p : PortId) (x : Transmitter) : (s.setTransmitter p x).tables = s.tables := rfl
@[simp] theorem setTransmitter_sweep (p : PortId) (x : Transmitter) : (s.setTransmitter p x).sweep = s.sweep := rfl
@[simp] theorem setTransmitter_alertEnable (p : PortId) (x : Transmitter) : (s.setTransmitter p x).alertEnable = s.alertEnable := rfl
@[simp] theorem setTransmitter_epoch (p : PortId) (x : Transmitter) : (s.setTransmitter p x).epoch = s.epoch := rfl
@[simp] theorem setTransmitter_tickPeriod (p : PortId) (x : Transmitter) : (s.setTransmitter p x).tickPeriod = s.tickPeriod := rfl
@[simp] theorem setTransmitter_tickInterval (p : PortId) (x : Transmitter) : (s.setTransmitter p x).tickInterval = s.tickInterval := rfl
@[simp] theorem setTransmitter_expiryPass (p : PortId) (x : Transmitter) : (s.setTransmitter p x).expiryPass = s.expiryPass := rfl
@[simp] theorem setTransmitter_slots (p : PortId) (x : Transmitter) : (s.setTransmitter p x).slots = s.slots := rfl
@[simp] theorem setTransmitter_receivers (p : PortId) (x : Transmitter) : (s.setTransmitter p x).receivers = s.receivers := rfl
@[simp] theorem setTransmitter_storage (p : PortId) (x : Transmitter) : (s.setTransmitter p x).storage = s.storage := rfl
@[simp] theorem setTransmitter_bodyEra (p : PortId) (x : Transmitter) : (s.setTransmitter p x).bodyEra = s.bodyEra := rfl
@[simp] theorem setTransmitter_freeCount (p : PortId) (x : Transmitter) : (s.setTransmitter p x).freeCount = s.freeCount := rfl
@[simp] theorem setTransmitter_banks (p : PortId) (x : Transmitter) : (s.setTransmitter p x).banks = s.banks := rfl
@[simp] theorem setTransmitter_iface (p : PortId) (x : Transmitter) : (s.setTransmitter p x).iface = s.iface := rfl
@[simp] theorem setTransmitter_refused (p : PortId) (x : Transmitter) : (s.setTransmitter p x).refused = s.refused := rfl
@[simp] theorem setTransmitter_requestBuffer (p : PortId) (x : Transmitter) : (s.setTransmitter p x).requestBuffer = s.requestBuffer := rfl
@[simp] theorem setTransmitter_answerBuffer (p : PortId) (x : Transmitter) : (s.setTransmitter p x).answerBuffer = s.answerBuffer := rfl
@[simp] theorem setTransmitter_engine (p : PortId) (x : Transmitter) : (s.setTransmitter p x).engine = s.engine := rfl
@[simp] theorem setTransmitter_msdo (p : PortId) (x : Transmitter) : (s.setTransmitter p x).msdo = s.msdo := rfl
@[simp] theorem setTransmitter_pending (p : PortId) (x : Transmitter) : (s.setTransmitter p x).pending = s.pending := rfl

@[simp] theorem setEnginePhase_resetAsserted (f : EnginePhase) : (s.setEnginePhase f).resetAsserted = s.resetAsserted := rfl
@[simp] theorem setEnginePhase_partState (f : EnginePhase) : (s.setEnginePhase f).partState = s.partState := rfl
@[simp] theorem setEnginePhase_startWalk (f : EnginePhase) : (s.setEnginePhase f).startWalk = s.startWalk := rfl
@[simp] theorem setEnginePhase_clearWalk (f : EnginePhase) : (s.setEnginePhase f).clearWalk = s.clearWalk := rfl
@[simp] theorem setEnginePhase_tables (f : EnginePhase) : (s.setEnginePhase f).tables = s.tables := rfl
@[simp] theorem setEnginePhase_sweep (f : EnginePhase) : (s.setEnginePhase f).sweep = s.sweep := rfl
@[simp] theorem setEnginePhase_alertEnable (f : EnginePhase) : (s.setEnginePhase f).alertEnable = s.alertEnable := rfl
@[simp] theorem setEnginePhase_epoch (f : EnginePhase) : (s.setEnginePhase f).epoch = s.epoch := rfl
@[simp] theorem setEnginePhase_tickPeriod (f : EnginePhase) : (s.setEnginePhase f).tickPeriod = s.tickPeriod := rfl
@[simp] theorem setEnginePhase_tickInterval (f : EnginePhase) : (s.setEnginePhase f).tickInterval = s.tickInterval := rfl
@[simp] theorem setEnginePhase_expiryPass (f : EnginePhase) : (s.setEnginePhase f).expiryPass = s.expiryPass := rfl
@[simp] theorem setEnginePhase_slots (f : EnginePhase) : (s.setEnginePhase f).slots = s.slots := rfl
@[simp] theorem setEnginePhase_receivers (f : EnginePhase) : (s.setEnginePhase f).receivers = s.receivers := rfl
@[simp] theorem setEnginePhase_transmitters (f : EnginePhase) : (s.setEnginePhase f).transmitters = s.transmitters := rfl
@[simp] theorem setEnginePhase_storage (f : EnginePhase) : (s.setEnginePhase f).storage = s.storage := rfl
@[simp] theorem setEnginePhase_bodyEra (f : EnginePhase) : (s.setEnginePhase f).bodyEra = s.bodyEra := rfl
@[simp] theorem setEnginePhase_freeCount (f : EnginePhase) : (s.setEnginePhase f).freeCount = s.freeCount := rfl
@[simp] theorem setEnginePhase_banks (f : EnginePhase) : (s.setEnginePhase f).banks = s.banks := rfl
@[simp] theorem setEnginePhase_iface (f : EnginePhase) : (s.setEnginePhase f).iface = s.iface := rfl
@[simp] theorem setEnginePhase_refused (f : EnginePhase) : (s.setEnginePhase f).refused = s.refused := rfl
@[simp] theorem setEnginePhase_requestBuffer (f : EnginePhase) : (s.setEnginePhase f).requestBuffer = s.requestBuffer := rfl
@[simp] theorem setEnginePhase_answerBuffer (f : EnginePhase) : (s.setEnginePhase f).answerBuffer = s.answerBuffer := rfl
@[simp] theorem setEnginePhase_msdo (f : EnginePhase) : (s.setEnginePhase f).msdo = s.msdo := rfl
@[simp] theorem setEnginePhase_pending (f : EnginePhase) : (s.setEnginePhase f).pending = s.pending := rfl

@[simp] theorem shiftOut_resetAsserted (l : List Byte) : (s.shiftOut l).resetAsserted = s.resetAsserted := rfl
@[simp] theorem shiftOut_partState (l : List Byte) : (s.shiftOut l).partState = s.partState := rfl
@[simp] theorem shiftOut_startWalk (l : List Byte) : (s.shiftOut l).startWalk = s.startWalk := rfl
@[simp] theorem shiftOut_clearWalk (l : List Byte) : (s.shiftOut l).clearWalk = s.clearWalk := rfl
@[simp] theorem shiftOut_tables (l : List Byte) : (s.shiftOut l).tables = s.tables := rfl
@[simp] theorem shiftOut_sweep (l : List Byte) : (s.shiftOut l).sweep = s.sweep := rfl
@[simp] theorem shiftOut_alertEnable (l : List Byte) : (s.shiftOut l).alertEnable = s.alertEnable := rfl
@[simp] theorem shiftOut_epoch (l : List Byte) : (s.shiftOut l).epoch = s.epoch := rfl
@[simp] theorem shiftOut_tickPeriod (l : List Byte) : (s.shiftOut l).tickPeriod = s.tickPeriod := rfl
@[simp] theorem shiftOut_tickInterval (l : List Byte) : (s.shiftOut l).tickInterval = s.tickInterval := rfl
@[simp] theorem shiftOut_expiryPass (l : List Byte) : (s.shiftOut l).expiryPass = s.expiryPass := rfl
@[simp] theorem shiftOut_slots (l : List Byte) : (s.shiftOut l).slots = s.slots := rfl
@[simp] theorem shiftOut_receivers (l : List Byte) : (s.shiftOut l).receivers = s.receivers := rfl
@[simp] theorem shiftOut_transmitters (l : List Byte) : (s.shiftOut l).transmitters = s.transmitters := rfl
@[simp] theorem shiftOut_storage (l : List Byte) : (s.shiftOut l).storage = s.storage := rfl
@[simp] theorem shiftOut_bodyEra (l : List Byte) : (s.shiftOut l).bodyEra = s.bodyEra := rfl
@[simp] theorem shiftOut_freeCount (l : List Byte) : (s.shiftOut l).freeCount = s.freeCount := rfl
@[simp] theorem shiftOut_banks (l : List Byte) : (s.shiftOut l).banks = s.banks := rfl
@[simp] theorem shiftOut_iface (l : List Byte) : (s.shiftOut l).iface = s.iface := rfl
@[simp] theorem shiftOut_requestBuffer (l : List Byte) : (s.shiftOut l).requestBuffer = s.requestBuffer := rfl
@[simp] theorem shiftOut_answerBuffer (l : List Byte) : (s.shiftOut l).answerBuffer = s.answerBuffer := rfl
@[simp] theorem shiftOut_engine (l : List Byte) : (s.shiftOut l).engine = s.engine := rfl
@[simp] theorem shiftOut_pending (l : List Byte) : (s.shiftOut l).pending = s.pending := rfl

end State

end Sys2Proof.Machine
end

