-- ==== Sys2Proof/Laws/Table.lean ====
section
/-! SUPPORT. The laws of sparse tables: a read after a write, and the canonical form kept. -/

namespace Sys2Proof.Machine.Table

variable {α : Type}

@[simp] theorem get_nil (d : α) (n : Nat) : get d [] n = d := rfl

theorem get_beyond_le (d : α) (n : Nat) (t : List (Nat × α)) (m : Nat) (h : m ≤ n) :
    get d (beyond n t) m = d := by
  induction t with
  | nil => rfl
  | cons e r ih =>
    obtain ⟨k, v⟩ := e
    by_cases hk : n < k
    · simp [beyond, hk, get, show m < k by omega]
    · simpa [beyond, hk] using ih

theorem get_beyond_gt (d : α) (n : Nat) (t : List (Nat × α)) (m : Nat) (h : n < m) :
    get d (beyond n t) m = get d t m := by
  induction t with
  | nil => rfl
  | cons e r ih =>
    obtain ⟨k, v⟩ := e
    by_cases hk : n < k
    · simp [beyond, hk]
    · simp [beyond, hk, ih, get, show ¬ m < k by omega, show ¬ m = k by omega]

variable [DecidableEq α]

/-- A read after a write, at the key written and at every other. No canonical form is asked for. -/
theorem get_put (d : α) (t : List (Nat × α)) (n : Nat) (x : α) (m : Nat) :
    get d (put d t n x) m = if m = n then x else get d t m := by
  induction t with
  | nil =>
    by_cases hx : x = d <;> by_cases hm : m = n <;> simp [put, get, hx, hm]
  | cons e r ih =>
    obtain ⟨k, v⟩ := e
    rcases Nat.lt_trichotomy n k with h | h | h
    · by_cases hx : x = d <;> by_cases hm : m = n
      · simp [put, get, h, hx, hm]
      · simp [put, h, hx, hm]
      · simp [put, get, h, hx, hm]
      · by_cases hl : m < n
        · simp [put, get, h, hx, hm, hl, show m < k by omega]
        · simp [put, get, h, hx, hm, hl]
    · subst h
      by_cases hx : x = d
      · by_cases hm : m ≤ n
        · rw [put, if_neg (Nat.lt_irrefl n), if_pos rfl, if_pos hx, get_beyond_le d n r m hm]
          by_cases hmn : m = n
          · simp [hmn, hx]
          · simp [get, hmn, show m < n by omega]
        · rw [put, if_neg (Nat.lt_irrefl n), if_pos rfl, if_pos hx,
            get_beyond_gt d n r m (by omega)]
          simp [get, show ¬ m = n by omega, show ¬ m < n by omega]
      · by_cases hm : m = n
        · simp [put, get, hx, hm]
        · by_cases hl : m < n <;> simp [put, get, hx, hm, hl]
    · have h1 : ¬ n < k := by omega
      have h2 : ¬ n = k := by omega
      by_cases hl : m < k
      · simp [put, get, h1, h2, hl, show ¬ m = n by omega]
      · by_cases he : m = k
        · have : ¬ k = n := fun e => h2 e.symm
          simp [put, get, h1, h2, he, this]
        · simp [put, get, h1, h2, hl, he, ih]

@[simp] theorem get_put_self (d : α) (t : List (Nat × α)) (n : Nat) (x : α) :
    get d (put d t n x) n = x := by
  simp [get_put]

theorem get_put_ne (d : α) (t : List (Nat × α)) (n : Nat) (x : α) (m : Nat) (h : m ≠ n) :
    get d (put d t n x) m = get d t m := by
  simp [get_put, h]

theorem wfAbove_weaken (d : α) (low : Option Nat) (l : Nat) (t : List (Nat × α))
    (h : wfAbove d (some l) t = true) (hl : ∀ x, low = some x → x ≤ l) :
    wfAbove d low t = true := by
  cases t with
  | nil => rfl
  | cons e r =>
    obtain ⟨k, v⟩ := e
    simp only [wfAbove, Bool.and_eq_true, Option.all_some, decide_eq_true_eq] at h ⊢
    refine ⟨⟨?_, h.1.2⟩, h.2⟩
    cases low with
    | none => rfl
    | some x => simpa using Nat.lt_of_le_of_lt (hl x rfl) h.1.1

theorem beyond_eq_self (d : α) (n : Nat) (t : List (Nat × α)) (h : wfAbove d (some n) t = true) :
    beyond n t = t := by
  cases t with
  | nil => rfl
  | cons e r =>
    obtain ⟨k, v⟩ := e
    simp only [wfAbove, Bool.and_eq_true, Option.all_some, decide_eq_true_eq] at h
    simp [beyond, h.1.1]

theorem wfAbove_put (d : α) (low : Option Nat) (t : List (Nat × α)) (n : Nat) (x : α)
    (h : wfAbove d low t = true) (hn : ∀ l, low = some l → l < n) :
    wfAbove d low (put d t n x) = true := by
  induction t generalizing low with
  | nil =>
    by_cases hx : x = d
    · simp [put, hx, wfAbove]
    · cases low <;> simp_all [put, wfAbove]
  | cons e r ih =>
    obtain ⟨k, v⟩ := e
    have h' := h
    simp only [wfAbove, Bool.and_eq_true, decide_eq_true_eq] at h
    obtain ⟨⟨hlow, hv⟩, hr⟩ := h
    have hln : (low.all fun l => decide (l < n)) = true := by
      cases low with
      | none => rfl
      | some l => simpa using hn l rfl
    rcases Nat.lt_trichotomy n k with hk | hk | hk
    · by_cases hx : x = d
      · simpa [put, hk, hx] using h'
      · simp [put, hk, hx, wfAbove, hln, hv, hr]
    · subst hk
      by_cases hx : x = d
      · rw [put, if_neg (Nat.lt_irrefl n), if_pos rfl, if_pos hx, beyond_eq_self d n r hr]
        exact wfAbove_weaken d low n r hr fun y hy => Nat.le_of_lt (hn y hy)
      · simp [put, hx, wfAbove, hlow, hr]
    · have h1 : ¬ n < k := by omega
      have h2 : ¬ n = k := by omega
      simp only [put, h1, h2, if_false, wfAbove, hlow, hv, decide_not, Bool.and_eq_true]
      exact ⟨⟨trivial, by simp⟩, ih (some k) hr (by simpa using hk)⟩

/-- Every write keeps the canonical form. -/
theorem wf_put (d : α) (t : List (Nat × α)) (n : Nat) (x : α) (h : wf d t = true) :
    wf d (put d t n x) = true :=
  wfAbove_put d none t n x h (by simp)

@[simp] theorem wf_nil (d : α) : wf d [] = true := rfl

end Sys2Proof.Machine.Table
end

