-- ==== Sys2Proof/Laws/Ops.lean ====
section
/-! SUPPORT. The laws of the operations over the tables: what a status entry, a domain, a port, a hold entry
or an outbound queue reads as after one of them is written, and that the status table keeps its canonical
form. -/

namespace Sys2Proof.Machine

namespace Tables

variable (T : Tables)

/-! ## Status entries -/

/-- The null index reads as FREE at generation 0 (R1). -/
@[simp] theorem entry_zero : T.entry 0 = .blank := rfl

/-- A status entry after one is written; index 0 is hard-wired (R1). -/
theorem entry_setEntry (i j : Index) (e : StatusEntry) :
    (T.setEntry i e).entry j = if j = i ∧ i ≠ 0 then e else T.entry j := by
  unfold setEntry entry
  by_cases hi : i.val = 0
  · have : i = 0 := Fin.ext hi
    simp [this]
  · have hi' : i ≠ 0 := fun h => hi (by rw [h]; rfl)
    by_cases hj : j.val = 0
    · have : j ≠ i := fun h => hi (by rw [← h]; exact hj)
      simp [hj, this]
    · simp [hi, hj, Table.get_put, Fin.ext_iff]

theorem entry_setEntry_self (i : Index) (e : StatusEntry) (h : i ≠ 0) :
    (T.setEntry i e).entry i = e := by
  simp [entry_setEntry, h]

theorem entry_setEntry_ne (i j : Index) (e : StatusEntry) (h : j ≠ i) :
    (T.setEntry i e).entry j = T.entry j := by
  simp [entry_setEntry, h]

/-- A status entry after one is changed. -/
theorem entry_modEntry (i j : Index) (f : StatusEntry → StatusEntry) :
    (T.modEntry i f).entry j = if j = i ∧ i ≠ 0 then f (T.entry j) else T.entry j := by
  unfold modEntry
  rw [entry_setEntry]
  by_cases h : j = i <;> simp [h]

/-- The status table keeps its canonical form when an entry is written. -/
theorem wf_setEntry (i : Index) (e : StatusEntry) (h : Table.wf .blank T.rst = true) :
    Table.wf .blank (T.setEntry i e).rst = true := by
  unfold setEntry
  split
  · exact h
  · exact Table.wf_put _ _ _ _ h

theorem wf_modEntry (i : Index) (f : StatusEntry → StatusEntry) (h : Table.wf .blank T.rst = true) :
    Table.wf .blank (T.modEntry i f).rst = true :=
  wf_setEntry T i _ h

/-- Writing a status entry leaves every other table as it was. -/
theorem setEntry_rest (i : Index) (e : StatusEntry) :
    T.setEntry i e = { T with rst := (T.setEntry i e).rst } := by
  unfold setEntry
  split <;> rfl

theorem modEntry_rest (i : Index) (f : StatusEntry → StatusEntry) :
    T.modEntry i f = { T with rst := (T.modEntry i f).rst } :=
  setEntry_rest T i _

/-! ## Domains, ports, holds and queues -/

theorem domain_setDomain (d d' : DomainId) (e : DomainEntry) :
    (T.setDomain d e).domain d' = if d' = d then e else T.domain d' :=
  pick_place _ _ _ _

theorem port_setPort (p p' : PortId) (e : PortEntry) :
    (T.setPort p e).port p' = if p' = p then e else T.port p' :=
  pick_place _ _ _ _

theorem queueOf_setQueue (p p' : PortId) (q : List OutFrame) :
    (T.setQueue p q).queueOf p' = if p' = p then q else T.queueOf p' :=
  pick_place _ _ _ _

/-- A frame placed stands at the tail of its own port's queue, and no other queue changes (R168). -/
theorem queueOf_placeFrame (p p' : PortId) (f : OutFrame) :
    (T.placeFrame p f).queueOf p' = if p' = p then T.queueOf p ++ [f] else T.queueOf p' :=
  pick_place _ _ _ _

theorem hold_setHold (p p' : PortId) (t t' : Token) (h : HoldEntry) :
    (T.setHold p t h).hold p' t' = if p' = p ∧ t' = t then h else T.hold p' t' := by
  unfold setHold hold
  rw [pick_place]
  by_cases hp : p' = p
  · simp [hp, pick_place]
  · simp [hp]

/-! ## The order of a claim's BROKEN frames (R63, R168) -/

/-- Putting frames in token order loses none and adds none. -/
theorem inTokenOrder_perm (l : List OutFrame) : (inTokenOrder l).Perm l := by
  rw [List.perm_iff_count]
  intro a
  unfold inTokenOrder
  rw [List.count_append, List.count_flatMap]
  cases a with
  | answer g v =>
    have h : ∀ t : Token, List.count (OutFrame.answer g v) (l.filter (brokenFrameOf t)) = 0 := by
      intro t
      rw [List.count_eq_zero]
      intro hm
      have := (List.mem_filter.mp hm).2
      simp [brokenFrameOf] at this
    rw [List.count_filter (by rfl)]
    simp [Function.comp_def, h]
  | broken t r =>
    have h0 : List.count (OutFrame.broken t r) (l.filter isAnswer) = 0 := by
      rw [List.count_eq_zero]
      intro hm
      have := (List.mem_filter.mp hm).2
      simp [isAnswer] at this
    have h : ∀ t' : Token, List.count (OutFrame.broken t r) (l.filter (brokenFrameOf t')) =
        if t' = t then List.count (OutFrame.broken t r) l else 0 := by
      intro t'
      by_cases ht : t' = t
      · rw [if_pos ht, List.count_filter (by simp [brokenFrameOf, ht])]
      · rw [if_neg ht, List.count_eq_zero]
        intro hm
        have := (List.mem_filter.mp hm).2
        simp [brokenFrameOf] at this
        exact ht this.symm
    rw [h0]
    simp only [Function.comp_def, h, Nat.zero_add]
    fin_cases t <;> simp [allTokens]

/-- A claim's frames are put in order behind the frames that waited before it. -/
theorem queueOf_orderFrames (T0 : Tables) (p : PortId) :
    (orderFrames T0 T).queueOf p = orderBehind (T0.queueOf p).length (T.queueOf p) := by
  unfold orderFrames queueOf
  simp only [allPorts, List.foldl_cons, List.foldl_nil, pick_place]
  fin_cases p <;> rfl

/-- The order of frames changes the outbound queues alone. -/
theorem orderFrames_rest (T0 : Tables) :
    orderFrames T0 T = { T with outbound := (orderFrames T0 T).outbound } := rfl

/-- A claim that has placed no frame leaves the queues as they were. -/
theorem orderFrames_of_same (T0 : Tables) (h : T.outbound = T0.outbound) : orderFrames T0 T = T := by
  have hq : ∀ p, T.queueOf p = T0.queueOf p := fun p => congrArg (pick · p) h
  have hplace : ∀ v : Vector (List OutFrame) 8, ∀ p, pick v p = T0.queueOf p →
      place v p (orderBehind (T0.queueOf p).length (pick v p)) = v := by
    intro v p hp
    refine place_of_pick_eq _ _ _ ?_
    rw [hp]
    simp [orderBehind, inTokenOrder]
  have hall : (allPorts.foldl
      (fun v p => place v p (orderBehind (T0.queueOf p).length (pick v p))) T.outbound) = T.outbound := by
    have hp : ∀ p, pick T.outbound p = T0.queueOf p := hq
    simp only [allPorts, List.foldl_cons, List.foldl_nil, hplace _ _ (hp _)]
  unfold orderFrames
  rw [hall]

/-- A claim's frames in order are the claim's frames. -/
theorem orderFrames_perm (T0 : Tables) (p : PortId) :
    ((orderFrames T0 T).queueOf p).Perm (T.queueOf p) := by
  rw [queueOf_orderFrames]
  unfold orderBehind
  have h := (inTokenOrder_perm ((T.queueOf p).drop (T0.queueOf p).length)).append_left
    ((T.queueOf p).take (T0.queueOf p).length)
  rwa [List.take_append_drop] at h

/-! ## What an operation on one table leaves of the views of the others -/

@[simp] theorem orderFrames_entry (T0 : Tables) (i : Index) :
    (orderFrames T0 T).entry i = T.entry i := rfl
@[simp] theorem orderFrames_hold (T0 : Tables) (p : PortId) (t : Token) :
    (orderFrames T0 T).hold p t = T.hold p t := rfl
@[simp] theorem orderFrames_port (T0 : Tables) (p : PortId) :
    (orderFrames T0 T).port p = T.port p := rfl

@[simp] theorem setDomain_entry (d : DomainId) (e : DomainEntry) (i : Index) :
    (T.setDomain d e).entry i = T.entry i := rfl
@[simp] theorem setPort_entry (p : PortId) (e : PortEntry) (i : Index) :
    (T.setPort p e).entry i = T.entry i := rfl
@[simp] theorem setHold_entry (p : PortId) (t : Token) (h : HoldEntry) (i : Index) :
    (T.setHold p t h).entry i = T.entry i := rfl
@[simp] theorem placeFrame_entry (p : PortId) (f : OutFrame) (i : Index) :
    (T.placeFrame p f).entry i = T.entry i := rfl
@[simp] theorem placeFrame_hold (p : PortId) (f : OutFrame) (p' : PortId) (t : Token) :
    (T.placeFrame p f).hold p' t = T.hold p' t := rfl
@[simp] theorem placeFrame_port (p : PortId) (f : OutFrame) (p' : PortId) :
    (T.placeFrame p f).port p' = T.port p' := rfl
@[simp] theorem setHold_port (p : PortId) (t : Token) (h : HoldEntry) (p' : PortId) :
    (T.setHold p t h).port p' = T.port p' := rfl

/-! ## Raising a reason (R111, R112) -/

/-- On a FREE record nothing is raised (R112). -/
theorem raiseRecord_free (i : Index) (r : RecReason) (h : (T.entry i).state = .free) :
    T.raiseRecord i r = T := by
  simp [raiseRecord, h]

/-- A reason raised on a record that is not FREE stands in its set; the first to stand takes the record's
generation and puts the record on the Notice List (R111, R113). -/
theorem raiseRecord_entry (i : Index) (r : RecReason) (h : (T.entry i).state ≠ .free) :
    (T.raiseRecord i r).entry i = { T.entry i with
      reasons := (T.entry i).reasons.add r
      noticeGen := if (T.entry i).reasons.isEmpty then some (T.entry i).generation
        else (T.entry i).noticeGen } := by
  have hi : i ≠ 0 := by
    intro e
    exact h (by rw [e]; rfl)
  by_cases he : (T.entry i).reasons.isEmpty = true
  · simp only [raiseRecord, h, he, if_false, if_true]
    exact entry_setEntry_self T i _ hi
  · simp only [raiseRecord, h, he, if_false]
    exact entry_setEntry_self T i _ hi

theorem raiseRecord_entry_ne (i j : Index) (r : RecReason) (h : j ≠ i) :
    (T.raiseRecord i r).entry j = T.entry j := by
  unfold raiseRecord
  simp only
  split
  · rfl
  · split
    · exact entry_setEntry_ne T i j _ h
    · exact entry_setEntry_ne T i j _ h

/-! ## The expiry queue (R100, R101) -/

/-- An insertion keeps the order of deadlines (R100). -/
theorem insertDue_sorted (d : Epoch) (i : Index) (q : List (Epoch × Index))
    (h : (q.map Prod.fst).Pairwise (· ≤ ·)) : ((insertDue d i q).map Prod.fst).Pairwise (· ≤ ·) := by
  have key : ∀ (q : List (Epoch × Index)) (x : Epoch), x ∈ (insertDue d i q).map Prod.fst →
      x = d ∨ x ∈ q.map Prod.fst := by
    intro q
    induction q with
    | nil => intro x hx; simpa [insertDue] using hx
    | cons a r ih =>
      obtain ⟨d', j⟩ := a
      intro x hx
      unfold insertDue at hx
      split at hx
      · simp only [List.map_cons, List.mem_cons] at hx ⊢
        rcases hx with hx | hx
        · exact Or.inr (Or.inl hx)
        · rcases ih x hx with hx | hx
          · exact Or.inl hx
          · exact Or.inr (Or.inr hx)
      · simpa using hx
  induction q with
  | nil => simp [insertDue]
  | cons a r ih =>
    obtain ⟨d', j⟩ := a
    simp only [List.map_cons, List.pairwise_cons] at h
    unfold insertDue
    split
    · rename_i hd
      simp only [List.map_cons, List.pairwise_cons]
      refine ⟨fun x hx => ?_, ih h.2⟩
      rcases key r x hx with hx | hx
      · rw [hx]; exact hd
      · exact h.1 x hx
    · rename_i hd
      have hlt : d ≤ d' := BitVec.le_of_lt (BitVec.not_le.mp hd)
      simp only [List.map_cons, List.pairwise_cons, List.mem_cons]
      refine ⟨fun x hx => ?_, h.1, h.2⟩
      rcases hx with hx | hx
      · rw [hx]; exact hlt
      · exact BitVec.le_trans hlt (h.1 x hx)

/-- A record that leaves the expiry queue has no entry in it. -/
theorem leaveQueue_not_mem (i : Index) : ∀ x ∈ (T.leaveQueue i).expiryQueue, x.2 ≠ i := by
  unfold leaveQueue
  rw [modEntry_rest]
  intro x hx
  have := (List.mem_filter.mp hx).2
  simpa using this

/-! ## A record becoming FREE, and completion (R13, R15) -/

/-- A record that becomes FREE reads FREE at the next generation, its reasons kept (R15). -/
theorem makeFree_entry (i : Index) (h : i ≠ 0) :
    (T.makeFree i).entry i = { StatusEntry.freeAt ((T.entry i).generation + 1) with
      reasons := (T.entry i).reasons, noticeGen := (T.entry i).noticeGen } :=
  entry_setEntry_self _ i _ h

/-- A record that is not DRAINING, or still has a pin or an alias, does not complete. -/
theorem testDraining_of_not (skip : Option Index) (i : Index) (h : completes (T.entry i) = false) :
    testDraining skip T i = T := by
  simp [testDraining, h]

theorem completes_of_state (e : StatusEntry) (h : e.state ≠ .draining) : completes e = false := by
  simp [completes, h]

/-! ## Breaks (R50, R63) -/

/-- A break of an entry that is not HELD changes nothing. -/
theorem breakHold_not_held (reason : BreakReason) (damaged : Option Index) (x : PortId × Token)
    (h : ∀ y, T.hold x.1 x.2 ≠ .held y) : breakHold reason damaged T x = T := by
  unfold breakHold
  split
  · rename_i y hy
    exact absurd hy (h y)
  all_goals rfl

/-- The entries found are HELD and satisfy the test. -/
theorem mem_heldWhere (f : PortId → Token → HeldHold → Bool) (x : PortId × Token) :
    x ∈ T.heldWhere f ↔ ∃ h, T.hold x.1 x.2 = .held h ∧ f x.1 x.2 h = true := by
  have hall : x ∈ allEntries := by
    obtain ⟨p, t⟩ := x
    revert p t
    decide
  unfold heldWhere
  rw [List.mem_filter]
  constructor
  · rintro ⟨_, hx⟩
    split at hx
    · rename_i h hh
      exact ⟨h, hh, hx⟩
    all_goals simp at hx
  · rintro ⟨h, hh, hf⟩
    refine ⟨hall, ?_⟩
    rw [hh]
    exact hf

/-- Where no hold rests on a record, none is found for it. -/
theorem heldWhere_eq_nil (f : PortId → Token → HeldHold → Bool)
    (h : ∀ p t y, T.hold p t = .held y → f p t y = false) : T.heldWhere f = [] := by
  rw [List.eq_nil_iff_forall_not_mem]
  intro x hx
  obtain ⟨y, hy, hf⟩ := (mem_heldWhere T f x).mp hx
  simp [h x.1 x.2 y hy] at hf

@[simp] theorem breakAll_nil (reason : BreakReason) (damaged : Option Index) :
    T.breakAll reason damaged [] = T := rfl

end Tables

namespace State

variable (s : State)

/-! ## Rows of the state -/

theorem bank_setBank (b b' : BankId) (k : Bank) :
    (s.setBank b k).bank b' = if b' = b then k else s.bank b' :=
  pick_place _ _ _ _

theorem slot_setSlot (p p' : PortId) (t t' : Tag) (x : Option CheckSlot) :
    (s.setSlot p t x).slot p' t' = if p' = p ∧ t' = t then x else s.slot p' t' := by
  unfold setSlot slot
  rw [pick_place]
  by_cases hp : p' = p
  · simp [hp, pick_place]
  · simp [hp]

@[simp] theorem onTables_bank (f : Tables → Tables) (b : BankId) : (s.onTables f).bank b = s.bank b := rfl
@[simp] theorem onTables_slot (f : Tables → Tables) (p : PortId) (t : Tag) :
    (s.onTables f).slot p t = s.slot p t := rfl
@[simp] theorem setBank_slot (b : BankId) (k : Bank) (p : PortId) (t : Tag) :
    (s.setBank b k).slot p t = s.slot p t := rfl
@[simp] theorem setSlot_bank (p : PortId) (t : Tag) (x : Option CheckSlot) (b : BankId) :
    (s.setSlot p t x).bank b = s.bank b := rfl

end State

end Sys2Proof.Machine
end

