-- ==== Sys2Proof/Laws/Store.lean ====
section
/-! SUPPORT. The Record Store: every operation over the body positions keeps the canonical form of storage
and of the page buffers, and says what the positions read as. -/

namespace Sys2Proof.Machine.State

variable (s : State)

/-! ## Geometry (R141) -/

/-- The positions of a page are those of its bank and page number. -/
theorem mem_pageIndices (b : BankId) (p : PageNo) (i : Index) :
    i ∈ pageIndices b p ↔ bankOf i = b ∧ pageOf i = p := by
  simp only [pageIndices, List.mem_map, List.mem_range, indexAt, bankOf, pageOf, Fin.ext_iff, Fin.ofNat]
  have hb := b.isLt
  have hp := p.isLt
  have hi := i.isLt
  constructor
  · rintro ⟨n, hn, h⟩
    omega
  · rintro ⟨h1, h2⟩
    exact ⟨i.val / 512, by omega, by omega⟩

/-! ## Canonical form -/

/-- The canonical form of the body positions: storage and the page buffer of every bank. -/
def BodiesCanonical (s : State) : Prop :=
  Table.wf s.blankCell s.storage = true ∧
    ∀ b op, (s.bank b).openPage = some op → Table.wf s.blankCell op.cells = true

theorem bodiesCanonical_reset : BodiesCanonical State.reset := by
  refine ⟨rfl, fun b op h => ?_⟩
  simp [State.reset, State.heldInReset, bank, Bank.reset] at h

theorem wf_writeStorage (i : Index) (c : Cell) (h : s.BodiesCanonical) :
    (s.writeStorage i c).BodiesCanonical :=
  ⟨Table.wf_put _ _ _ _ h.1, h.2⟩

/-- A bank's page buffer is replaced by one in canonical form, or emptied. -/
theorem wf_setBank (b : BankId) (k : Bank) (h : s.BodiesCanonical)
    (hk : ∀ op, k.openPage = some op → Table.wf s.blankCell op.cells = true) :
    (s.setBank b k).BodiesCanonical := by
  refine ⟨h.1, fun b' op hop => ?_⟩
  rw [bank_setBank] at hop
  by_cases hb : b' = b
  · rw [if_pos hb] at hop
    exact hk op hop
  · rw [if_neg hb] at hop
    exact h.2 b' op hop

theorem wf_writeCell (i : Index) (c : Cell) (h : s.BodiesCanonical) :
    (s.writeCell i c).BodiesCanonical := by
  unfold writeCell
  split
  · rename_i op hop
    split
    · refine wf_setBank s _ _ h fun op' hop' => ?_
      simp only [Option.some.injEq] at hop'
      rw [← hop']
      exact Table.wf_put _ _ _ _ (h.2 _ op hop)
    · exact wf_writeStorage s i c h
  · exact wf_writeStorage s i c h

theorem wf_decay (i : Index) (u : Option StoredBody) (h : s.BodiesCanonical) :
    (s.decay i u).BodiesCanonical := by
  unfold decay
  split
  · exact h
  · rename_i b
    split
    · exact h
    · have h1 := wf_writeStorage s i (.stored b) h
      simp only
      split
      · rename_i op hop
        split
        · refine wf_setBank _ _ _ h1 fun op' hop' => ?_
          simp only [Option.some.injEq] at hop'
          rw [← hop']
          exact Table.wf_put _ _ _ _ (h1.2 _ op hop)
        · exact h1
      · exact h1

/-- A fold of writes keeps the canonical form of a table. -/
theorem wf_foldl_put (d : Cell) (f : Index → Cell) (l : List Index) (t : List (Nat × Cell))
    (h : Table.wf d t = true) :
    Table.wf d (l.foldl (fun t i => Table.put d t i.val (f i)) t) = true := by
  induction l generalizing t with
  | nil => exact h
  | cons i r ih => exact ih _ (Table.wf_put d t i.val (f i) h)

/-- What a key reads as after a fold of writes. -/
theorem get_foldl_put (d : Cell) (f : Index → Cell) (l : List Index) (t : List (Nat × Cell)) (j : Index) :
    Table.get d (l.foldl (fun t i => Table.put d t i.val (f i)) t) j.val =
      if j ∈ l then f j else Table.get d t j.val := by
  induction l generalizing t with
  | nil => simp
  | cons i r ih =>
    rw [List.foldl_cons, ih]
    by_cases hr : j ∈ r
    · simp [hr]
    · rw [if_neg hr, Table.get_put]
      by_cases hj : j = i
      · simp [hj]
      · have hv : j.val ≠ i.val := fun e => hj (Fin.ext e)
        simp [hj, hr, hv]

theorem wf_openedPage (b : BankId) (p : PageNo) : Table.wf s.blankCell (s.openedPage b p).cells = true :=
  wf_foldl_put _ _ _ _ rfl

theorem wf_writeBack (b : BankId) (op : OpenPage) (h : s.BodiesCanonical) :
    (s.writeBack b op).BodiesCanonical :=
  ⟨wf_foldl_put _ _ _ _ h.1, h.2⟩

theorem wf_closePage (b : BankId) (h : s.BodiesCanonical) : (s.closePage b).BodiesCanonical := by
  unfold closePage
  split
  · exact h
  · rename_i op hop
    refine wf_setBank _ _ _ ?_ (by simp)
    split
    · exact wf_writeBack s b op h
    · exact h

theorem closePage_blankCell (b : BankId) : (s.closePage b).blankCell = s.blankCell := by
  unfold closePage
  split
  · rfl
  · dsimp only
    split <;> rfl

theorem wf_bringPage (b : BankId) (p : PageNo) (h : s.BodiesCanonical) :
    (s.bringPage b p).BodiesCanonical := by
  unfold bringPage
  split
  · exact h
  · refine wf_setBank _ _ _ (wf_closePage s b h) fun op hop => ?_
    simp only [Option.some.injEq] at hop
    rw [← hop]
    exact wf_openedPage _ b p

theorem wf_beginService (b : BankId) (h : s.BodiesCanonical) : (s.beginService b).BodiesCanonical := by
  unfold beginService
  split
  · exact h
  · rename_i job _ _
    have h1 := wf_bringPage s b (pageOf job.index) h
    exact wf_setBank _ _ _ h1 fun op hop => h1.2 b op hop

theorem wf_beginRefresh (b : BankId) (h : s.BodiesCanonical) : (s.beginRefresh b).BodiesCanonical := by
  have h1 := wf_closePage s b h
  exact wf_setBank _ _ _ h1 fun op hop => h1.2 b op hop

theorem wf_choicePoint (b : BankId) (h : s.BodiesCanonical) : (s.choicePoint b).BodiesCanonical := by
  unfold choicePoint
  dsimp only
  split
  · exact wf_beginRefresh s b h
  · exact wf_beginRefresh _ b (wf_setBank s b _ h fun op hop => h.2 b op hop)
  · exact wf_beginService s b h
  · exact wf_setBank s b _ h fun op hop => h.2 b op hop

theorem wf_joinQueue (job : Job) (h : s.BodiesCanonical) : (s.joinQueue job).BodiesCanonical := by
  have h1 : (s.setBank (bankOf job.index) { s.bank (bankOf job.index) with
      queue := (s.bank (bankOf job.index)).queue ++ [job] }).BodiesCanonical :=
    wf_setBank s _ _ h fun op hop => h.2 _ op hop
  unfold joinQueue
  dsimp only
  split
  · exact wf_choicePoint _ _ h1
  · exact h1

/-! ## What the positions read as (R146) -/

/-- The positions of a page are copied into the page buffer as they stand in storage. -/
theorem get_openedPage (b : BankId) (p : PageNo) (i : Index) (h : i ∈ pageIndices b p) :
    Table.get s.blankCell (s.openedPage b p).cells i.val = Table.get s.blankCell s.storage i.val := by
  unfold openedPage
  rw [get_foldl_put s.blankCell (fun i => Table.get s.blankCell s.storage i.val), if_pos h]

/-- Storage after a page is written back: the page's positions as the buffer holds them, the rest as
before. -/
theorem get_writeBack (b : BankId) (op : OpenPage) (i : Index) :
    Table.get s.blankCell (s.writeBack b op).storage i.val =
      if i ∈ pageIndices b op.page then Table.get s.blankCell op.cells i.val
      else Table.get s.blankCell s.storage i.val :=
  get_foldl_put s.blankCell (fun i => Table.get s.blankCell op.cells i.val) _ _ _

end Sys2Proof.Machine.State
end

