-- ==== Sys2Proof/Laws/Pages.lean ====
section
/-! SUPPORT. A choice point moves body positions between storage and page buffers and changes none of them,
where the page buffers that are not dirty agree with storage. -/

namespace Sys2Proof.Machine.State

/-- What a choice point keeps of the bodies: every position, the agreement of clean pages, and what an
unlisted position reads as. -/
structure SameBodies (s t : State) : Prop where
  cells : ∀ i, t.cellAt i = s.cellAt i
  clean : t.PagesClean
  blank : t.blankCell = s.blankCell

theorem SameBodies.refl (s : State) (h : s.PagesClean) : SameBodies s s := ⟨fun _ => rfl, h, rfl⟩

theorem SameBodies.comp {s t u : State} (h1 : SameBodies s t) (h2 : SameBodies t u) : SameBodies s u :=
  ⟨fun i => (h2.cells i).trans (h1.cells i), h2.clean, h2.blank.trans h1.blank⟩

/-- A part with every page buffer empty keeps the law of clean pages. -/
theorem pagesClean_of_closed (s : State) (h : ∀ b, (s.bank b).openPage = none) : s.PagesClean := by
  intro b op hop
  simp [h b] at hop

/-- What a position reads as where the page buffer of its bank holds a page. -/
theorem cellAt_of_open (s : State) (i : Index) (op : OpenPage)
    (h : (s.bank (bankOf i)).openPage = some op) :
    s.cellAt i = if op.page = pageOf i then Table.get s.blankCell op.cells i.val
      else Table.get s.blankCell s.storage i.val := by
  simp [cellAt, h]

theorem cellAt_of_closed (s : State) (i : Index) (h : (s.bank (bankOf i)).openPage = none) :
    s.cellAt i = Table.get s.blankCell s.storage i.val := by
  simp [cellAt, h]

/-- An update of a bank that keeps its page buffer changes no body. -/
theorem sameBodies_setBank (s : State) (b : BankId) (k : Bank) (h : s.PagesClean)
    (hk : k.openPage = (s.bank b).openPage) : SameBodies s (s.setBank b k) := by
  have hop : ∀ b', ((s.setBank b k).bank b').openPage = (s.bank b').openPage := by
    intro b'
    rw [bank_setBank]
    by_cases hb : b' = b
    · simp [hb, hk]
    · simp [hb]
  refine ⟨fun i => ?_, fun b' op h1 h2 => ?_, rfl⟩
  · unfold cellAt
    rw [hop]
    rfl
  · rw [hop] at h1
    exact h b' op h1 h2

/-- Closing a page changes no body. -/
theorem sameBodies_closePage (s : State) (b : BankId) (h : s.PagesClean) :
    SameBodies s (s.closePage b) := by
  cases hp : (s.bank b).openPage with
  | none =>
    have : s.closePage b = s := by simp [closePage, hp]
    rw [this]
    exact SameBodies.refl s h
  | some op =>
    have hbanks : ∀ b', ((s.closePage b).bank b').openPage =
        if b' = b then none else (s.bank b').openPage := by
      intro b'
      unfold closePage
      simp only [hp]
      rw [bank_setBank]
      by_cases hb : b' = b
      · simp [hb]
      · by_cases hd : op.dirty = true
        · simp [hb, hd, writeBack, bank]
        · simp [hb, hd]
    have hblank := closePage_blankCell s b
    have hget : ∀ i : Index, Table.get s.blankCell (s.closePage b).storage i.val =
        if i ∈ pageIndices b op.page then Table.get s.blankCell op.cells i.val
        else Table.get s.blankCell s.storage i.val := by
      intro i
      unfold closePage
      simp only [hp, setBank_storage]
      by_cases hd : op.dirty = true
      · simp only [hd, if_true]
        exact get_writeBack s b op i
      · simp only [hd]
        by_cases hi : i ∈ pageIndices b op.page
        · rw [if_pos hi]
          exact (h b op hp (by simpa using hd) i hi).symm
        · rw [if_neg hi]
          rfl
    refine ⟨fun i => ?_, fun b' op' h1 h2 i hi => ?_, hblank⟩
    · by_cases hb : bankOf i = b
      · rw [cellAt_of_closed _ i (by rw [hbanks, if_pos hb]), hblank, hget,
          cellAt_of_open s i op (by rw [hb, hp])]
        by_cases hpg : op.page = pageOf i
        · rw [if_pos hpg, if_pos ((mem_pageIndices b op.page i).mpr ⟨hb, hpg.symm⟩)]
        · have hm : i ∉ pageIndices b op.page := fun hm =>
            hpg ((mem_pageIndices b op.page i).mp hm).2.symm
          rw [if_neg hpg, if_neg hm]
      · unfold cellAt
        rw [hbanks, if_neg hb, hblank, hget, if_neg]
        exact fun hm => hb ((mem_pageIndices b op.page i).mp hm).1
    · rw [hbanks] at h1
      by_cases hb : b' = b
      · simp [hb] at h1
      · rw [if_neg hb] at h1
        have hi' := (mem_pageIndices b' op'.page i).mp hi
        rw [hblank, hget, if_neg, h b' op' h1 h2 i hi]
        exact fun hm => hb (hi'.1.symm.trans ((mem_pageIndices b op.page i).mp hm).1)

/-- After a bank's page is closed its page buffer is empty, and the rest of the bank as it was. -/
theorem bank_closePage (s : State) (b b' : BankId) :
    (s.closePage b).bank b' = if b' = b then { s.bank b with openPage := none } else s.bank b' := by
  cases hp : (s.bank b).openPage with
  | none =>
    have : s.closePage b = s := by simp [closePage, hp]
    rw [this]
    by_cases hb : b' = b
    · rw [if_pos hb, hb, ← hp]
    · rw [if_neg hb]
  | some op =>
    unfold closePage
    simp only [hp]
    rw [bank_setBank]
    by_cases hb : b' = b
    · by_cases hd : op.dirty = true <;> simp [hb, hd, writeBack, bank]
    · by_cases hd : op.dirty = true <;> simp [hb, hd, writeBack, bank]

/-- Closing a page changes storage and the bank alone. -/
theorem closePage_rest (s : State) (b : BankId) :
    s.closePage b = { s with banks := (s.closePage b).banks, storage := (s.closePage b).storage } := by
  unfold closePage
  split
  · rfl
  · dsimp only
    split <;> rfl

/-- Bringing a page in changes no body. -/
theorem sameBodies_bringPage (s : State) (b : BankId) (p : PageNo) (h : s.PagesClean) :
    SameBodies s (s.bringPage b p) := by
  by_cases hp : (s.bank b).openPage.map OpenPage.page = some p
  · have : s.bringPage b p = s := by simp [bringPage, hp]
    rw [this]
    exact SameBodies.refl s h
  · have hc := sameBodies_closePage s b h
    have heq : s.bringPage b p = (s.closePage b).setBank b { (s.closePage b).bank b with
        openPage := some ((s.closePage b).openedPage b p) } := by simp [bringPage, hp]
    rw [heq]
    refine hc.comp ?_
    have hnone : ((s.closePage b).bank b).openPage = none := by rw [bank_closePage, if_pos rfl]
    generalize hu : s.closePage b = u at *
    refine ⟨fun i => ?_, fun b' op h1 h2 i hi => ?_, rfl⟩
    · by_cases hb : bankOf i = b
      · rw [cellAt_of_open _ i (u.openedPage b p) (by rw [bank_setBank, if_pos hb]),
          cellAt_of_closed u i (by rw [hb, hnone])]
        by_cases hpg : (u.openedPage b p).page = pageOf i
        · rw [if_pos hpg]
          exact get_openedPage u b p i ((mem_pageIndices b p i).mpr ⟨hb, hpg.symm⟩)
        · rw [if_neg hpg]
          rfl
      · unfold cellAt
        rw [bank_setBank, if_neg hb]
        rfl
    · rw [bank_setBank] at h1
      by_cases hb : b' = b
      · rw [if_pos hb, Option.some.injEq] at h1
        subst h1 hb
        exact get_openedPage u b' p i hi
      · rw [if_neg hb] at h1
        exact hc.clean b' op h1 h2 i hi

theorem bringPage_rest (s : State) (b : BankId) (p : PageNo) :
    s.bringPage b p =
      { s with banks := (s.bringPage b p).banks, storage := (s.bringPage b p).storage } := by
  unfold bringPage
  split
  · rfl
  · dsimp only
    rw [closePage_rest]
    rfl

/-- After a page is brought in it is the open page, and the rest of the bank as it was. -/
theorem bank_bringPage (s : State) (b : BankId) (p : PageNo) :
    ∃ op : OpenPage, op.page = p ∧ ∀ b', (s.bringPage b p).bank b' =
      if b' = b then { s.bank b with openPage := some op } else s.bank b' := by
  by_cases hp : (s.bank b).openPage.map OpenPage.page = some p
  · have : s.bringPage b p = s := by simp [bringPage, hp]
    rw [this]
    obtain ⟨op, hop, hpage⟩ := Option.map_eq_some_iff.mp hp
    refine ⟨op, hpage, fun b' => ?_⟩
    by_cases hb : b' = b
    · rw [if_pos hb, hb, ← hop]
    · rw [if_neg hb]
  · refine ⟨(s.closePage b).openedPage b p, rfl, fun b' => ?_⟩
    have heq : s.bringPage b p = (s.closePage b).setBank b { (s.closePage b).bank b with
        openPage := some ((s.closePage b).openedPage b p) } := by simp [bringPage, hp]
    rw [heq, bank_setBank, bank_closePage, bank_closePage]
    by_cases hb : b' = b <;> simp [hb]

theorem sameBodies_beginService (s : State) (b : BankId) (h : s.PagesClean) :
    SameBodies s (s.beginService b) := by
  unfold beginService
  split
  · exact SameBodies.refl s h
  · rename_i job _ _
    have h1 := sameBodies_bringPage s b (pageOf job.index) h
    exact h1.comp (sameBodies_setBank _ b _ h1.clean rfl)

theorem sameBodies_beginRefresh (s : State) (b : BankId) (h : s.PagesClean) :
    SameBodies s (s.beginRefresh b) := by
  have h1 := sameBodies_closePage s b h
  exact h1.comp (sameBodies_setBank _ b _ h1.clean rfl)

/-- A choice point changes no body position (R143, R146). -/
theorem sameBodies_choicePoint (s : State) (b : BankId) (h : s.PagesClean) :
    SameBodies s (s.choicePoint b) := by
  unfold choicePoint
  dsimp only
  split
  · exact sameBodies_beginRefresh s b h
  · have h1 := sameBodies_setBank s b { s.bank b with urgent := true } h rfl
    exact h1.comp (sameBodies_beginRefresh _ b h1.clean)
  · exact sameBodies_beginService s b h
  · exact sameBodies_setBank s b _ h rfl

/-! ## What a choice point selects (R143) -/

/-- The head job is served: the bank is BUSY with the job's page in its buffer (R146). -/
theorem bank_beginService (s : State) (b : BankId) (job : Job) (rest : List Job)
    (h : (s.bank b).queue = job :: rest) :
    ∃ op : OpenPage, op.page = pageOf job.index ∧ ∀ b', (s.beginService b).bank b' =
      if b' = b then { s.bank b with controller := .busy, openPage := some op, writeHalf := false }
      else s.bank b' := by
  obtain ⟨op, hpage, hbank⟩ := bank_bringPage s b (pageOf job.index)
  refine ⟨op, hpage, fun b' => ?_⟩
  unfold beginService
  rw [h]
  dsimp only
  rw [bank_setBank, hbank, hbank]
  by_cases hb : b' = b <;> simp [hb]

/-- A refresh begins: the page buffer is emptied, the pointer's page goes under refresh, the debt falls and
the pointer advances (R156). -/
theorem bank_beginRefresh (s : State) (b b' : BankId) :
    (s.beginRefresh b).bank b' = if b' = b then { s.bank b with
        openPage := none
        underRefresh := some (s.bank b).pointer
        debt := (s.bank b).debt - 1
        pointer := (s.bank b).pointer + 1
        controller := .refreshing }
      else s.bank b' := by
  unfold beginRefresh
  dsimp only
  rw [bank_setBank, bank_closePage, bank_closePage]
  by_cases hb : b' = b <;> simp [hb]

/-- A choice point changes the bank and storage alone. -/
theorem choicePoint_rest (s : State) (b : BankId) :
    s.choicePoint b =
      { s with banks := (s.choicePoint b).banks, storage := (s.choicePoint b).storage } := by
  have hs : ∀ s : State, s.beginService b =
      { s with banks := (s.beginService b).banks, storage := (s.beginService b).storage } := by
    intro s
    unfold beginService
    split
    · rfl
    · dsimp only
      rw [bringPage_rest]
      rfl
  have hr : ∀ s : State, s.beginRefresh b =
      { s with banks := (s.beginRefresh b).banks, storage := (s.beginRefresh b).storage } := by
    intro s
    unfold beginRefresh
    dsimp only
    rw [closePage_rest]
    rfl
  unfold choicePoint
  dsimp only
  split
  · exact hr s
  · rw [hr]
    rfl
  · exact hs s
  · rfl

/-- A choice point keeps the queues of every bank, and every other bank whole. -/
theorem queue_choicePoint (s : State) (b b' : BankId) :
    ((s.choicePoint b).bank b').queue = (s.bank b').queue ∧
      (b' ≠ b → (s.choicePoint b).bank b' = s.bank b') := by
  unfold choicePoint
  dsimp only
  split
  · rw [bank_beginRefresh]
    by_cases hb : b' = b <;> simp [hb]
  · rw [bank_beginRefresh, bank_setBank, bank_setBank]
    by_cases hb : b' = b <;> simp [hb]
  · cases hq : (s.bank b).queue with
    | nil => simp [beginService, hq]
    | cons job rest =>
      obtain ⟨op, _, hbank⟩ := bank_beginService s b job rest hq
      rw [hbank]
      by_cases hb : b' = b <;> simp [hb, hq]
  · rw [bank_setBank]
    by_cases hb : b' = b <;> simp [hb]

end Sys2Proof.Machine.State
end

