-- ==== Sys2Proof/Laws/Completion.lean ====
section
/-! SUPPORT. What the shared parts of a completion claim come to: the grant of the freed place, and the choice of
the bank. -/

namespace Sys2Proof.Machine

namespace State

/-- The first port in the arbiter's order with a slot waiting (R153). -/
theorem nextPort_eq_some (k : Bank) (n : Fin 8)
    (hn : ∀ m : Fin 8, m < n → pick k.slotsWaiting (k.lastGranted + 1 + m) = [])
    (hg : pick k.slotsWaiting (k.lastGranted + 1 + n) ≠ []) :
    nextPort k = some (k.lastGranted + 1 + n) := by
  have h8 : ∀ n : Fin 8, allPorts = allPorts.take n.val ++ n :: allPorts.drop (n.val + 1) := by decide
  have hlt : ∀ n : Fin 8, ∀ m ∈ allPorts.take n.val, m < n := by decide
  unfold nextPort grantOrder
  rw [List.find?_map]
  have key : List.find? ((fun p => !(pick k.slotsWaiting p).isEmpty) ∘
      fun j => k.lastGranted + 1 + j) allPorts = some n := by
    rw [List.find?_eq_some_iff_append]
    refine ⟨by simpa using hg, _, _, h8 n, fun m hm => ?_⟩
    simp [hn m (hlt n m hm)]
  rw [key, Option.map_some]

/-- A waiting slot asks for the target read once it is issued, else for the read of the named record. -/
theorem slotJob_eq (s : State) (p : PortId) (g : Tag) (x : CheckSlot) (hx : s.slot p g = some x) :
    s.slotJob p g = some (.bodyRead (x.targetRead.getD x.named).index
      (x.targetRead.getD x.named).generation (.slot p g)) := by
  unfold slotJob
  rw [hx, Option.map_some]
  cases h : x.targetRead <;> rfl

/-- The grant of a completion claim is what `PlaceGranted` says, and nothing else is (R146, R153). -/
theorem leaveHead_of_placeGranted (s u : State) (b : BankId) (job : Job) (rest : List Job)
    (hq : (s.bank b).queue = job :: rest) (h : PlaceGranted s u b rest) : s.leaveHead b = u := by
  obtain ⟨k, hk⟩ : ∃ k, k = { s.bank b with queue := rest, writeHalf := false } := ⟨_, rfl⟩
  have hl : s.leaveHead b = (s.setBank b k).grant b := by
    unfold leaveHead
    simp only [hq, List.tail_cons, hk]
  have hb : (s.setBank b k).bank b = k := by
    rw [bank_setBank, if_pos rfl]
  have hr : k.queue = rest := by rw [hk]
  have h' : (∃ job, k.engineWaiting = some job ∧
      u = { s with
        banks := place s.banks b { k with engineWaiting := none, queue := rest ++ [job] }
        engine := s.engine.map fun (e : Progress) => { e with phase := .job } }) ∨
      (k.engineWaiting = none ∧ ∃ (n : Fin 8) (p : PortId) (g : Tag) (gs : List Tag) (x : CheckSlot)
        (r : ReadRecord), p = k.lastGranted + 1 + n ∧
        (∀ m : Fin 8, m < n → pick k.slotsWaiting (k.lastGranted + 1 + m) = []) ∧
        pick k.slotsWaiting p = g :: gs ∧ s.slot p g = some x ∧ r = x.targetRead.getD x.named ∧
        u = State.setSlot { s with
            banks := place s.banks b { k with
              slotsWaiting := place k.slotsWaiting p gs
              lastGranted := p
              queue := rest ++ [.bodyRead r.index r.generation (.slot p g)] } }
          p g (some { x with phase := .reading })) ∨
      (k.engineWaiting = none ∧ (∀ p, pick k.slotsWaiting p = []) ∧
        u = { s with banks := place s.banks b k }) := by
    subst hk
    exact h
  clear h
  rw [hl]
  unfold grant
  rw [hb]
  rcases h' with ⟨j, hj, rfl⟩ | ⟨hw, n, p, g, gs, x, r, hp, hn, hg, hx, hrr, rfl⟩ | ⟨hw, hn, rfl⟩
  · simp only [hj, hr]
    unfold setEnginePhase setBank
    simp only [place_place]
  · have hnp := nextPort_eq_some k n hn (by rw [← hp, hg]; simp)
    rw [← hp] at hnp
    simp only [hw, hnp]
    unfold grantSlot
    rw [hb]
    simp only [hg]
    rw [slotJob_eq (s.setBank b k) p g x hx, ← hrr]
    unfold setSlotPhase
    rw [setBank_slot, setBank_slot, hx]
    simp only [setBank, place_place, Option.toList_some, hr, hw]
  · have hnp : nextPort k = none := by
      unfold nextPort
      simp [hn]
    simp only [hw, hnp]
    rfl

/-- The page that service brings in: the open page as it stands where it is the one, and a page not dirty
otherwise (R146). -/
theorem openPage_bringPage (s : State) (b : BankId) (p : PageNo) :
    ∃ op : OpenPage, ((s.bringPage b p).bank b).openPage = some op ∧ op.page = p ∧
      (∀ o, (s.bank b).openPage = some o → o.page = p → op = o) ∧
      ((s.bank b).openPage.map OpenPage.page ≠ some p → op.dirty = false) := by
  unfold bringPage
  split
  · next h =>
    obtain ⟨o, ho, hp⟩ := Option.map_eq_some_iff.mp h
    exact ⟨o, ho, hp, fun o' h' _ => by rw [ho] at h'; exact Option.some.inj h', fun hne => absurd h hne⟩
  · next h =>
    refine ⟨(s.closePage b).openedPage b p, ?_, rfl, fun o ho hp => absurd ?_ h, fun _ => rfl⟩
    · dsimp only
      rw [bank_setBank, if_pos rfl]
    · rw [ho, Option.map_some, hp]

/-- A choice point leaves its bank as `ChoiceMade` says (R143). -/
theorem choiceMade_choicePoint (s : State) (b : BankId) :
    ChoiceMade (s.bank b) ((s.choicePoint b).bank b) := by
  unfold ChoiceMade choicePoint
  by_cases h1 : (s.bank b).urgent = true ∧ 0 < (s.bank b).debt
  · have hc : choiceOf (s.bank b) = .refresh := by simp [choiceOf, h1]
    rw [if_pos (Or.inl h1)]
    simp only [hc, bank_beginRefresh, if_true, refreshBegun, h1.1]
  by_cases h2 : 4 ≤ (s.bank b).debt
  · have hc : choiceOf (s.bank b) = .urgentRun := by
      unfold choiceOf
      rw [if_neg h1, if_pos (show Config.urgentDebt ≤ _ from h2)]
    rw [if_pos (Or.inr h2)]
    simp only [hc, bank_beginRefresh, bank_setBank, if_true, refreshBegun]
  rw [if_neg (fun h => h.elim h1 h2)]
  have hu : ¬ Config.urgentDebt ≤ (s.bank b).debt := h2
  cases hq : (s.bank b).queue with
  | nil =>
    by_cases h3 : 0 < (s.bank b).debt
    · have hc : choiceOf (s.bank b) = .refresh := by
        unfold choiceOf
        rw [if_neg h1, if_neg hu, if_neg (by simp [hq]), if_pos h3]
      simp only [hc, h3, if_true, bank_beginRefresh, refreshBegun]
    · have hc : choiceOf (s.bank b) = .rest := by
        unfold choiceOf
        rw [if_neg h1, if_neg hu, if_neg (by simp [hq]), if_neg h3]
      simp only [hc, h3, if_false, bank_setBank, if_true, restState]
      cases (s.bank b).openPage <;> simp [hq]
  | cons job rest =>
    have hc : choiceOf (s.bank b) = .serve := by
      unfold choiceOf
      rw [if_neg h1, if_neg hu, if_pos (by simp [hq])]
    simp only [hc]
    obtain ⟨op, hop, hpage, hsame, hclean⟩ := openPage_bringPage s b (pageOf job.index)
    obtain ⟨op', _, hbank⟩ := bank_bringPage s b (pageOf job.index)
    have he : op' = op := by
      rw [hbank b, if_pos rfl] at hop
      exact Option.some.inj hop
    subst he
    refine ⟨op', hpage, fun o ho hp => hsame o ho (hp.trans hpage), fun hne => hclean (hpage ▸ hne), ?_⟩
    unfold beginService
    simp only [hq]
    rw [bank_setBank, if_pos rfl, hbank, if_pos rfl]
    simp [hq]

/-- A completion claim that leaves the banks and storage of `u` alone ends as `JobEnds` says: the choice of bank
`b` follows it (R143, R146). -/
theorem jobEnds_choicePoint (s u v : State) (b : BankId) (hbanks : v.banks = u.banks)
    (hother : ∀ b', b' ≠ b → u.bank b' = s.bank b')
    (hcells : s.PagesClean → v.PagesClean ∧ ∀ i, v.cellAt i = s.cellAt i) :
    JobEnds s u (v.choicePoint b) b v := by
  have hv : ∀ b', v.bank b' = u.bank b' := fun b' => by
    unfold bank
    rw [hbanks]
  refine ⟨hv b ▸ choiceMade_choicePoint v b, fun b' hb => ?_, fun hp i => ?_, choicePoint_rest v b⟩
  · rw [(queue_choicePoint v b b').2 hb, hv, hother b' hb]
  · rw [(sameBodies_choicePoint v b (hcells hp).1).cells i, (hcells hp).2]

end State

end Sys2Proof.Machine
end

