-- ==== Sys2Proof/Laws/Link.lean ====
section
/-! SUPPORT. What a whole frame on a lane comes to, and the fields of a frame's bytes. -/

namespace Sys2Proof.Machine

namespace State

@[simp] theorem setReceiver_setReceiver (s : State) (p : PortId) (a b : Receiver) :
    (s.setReceiver p a).setReceiver p b = s.setReceiver p b := by
  simp [setReceiver]

theorem setReceiver_of_pick (s : State) (p : PortId) (r : Receiver) (h : pick s.receivers p = r) :
    s.setReceiver p r = s := by
  simp [setReceiver, place_of_pick_eq _ _ _ h]

@[simp] theorem pick_setReceiver (s : State) (p : PortId) (r : Receiver) :
    pick (s.setReceiver p r).receivers p = r := by
  simp [setReceiver]

/-- The rest of a frame arrives at a RECEIVING lane: sixteen bytes in all are taken as one frame (R163). -/
theorem foldl_data (p : PortId) (l : List Byte) (s : State) (acc : List Byte)
    (hr : pick s.receivers p = .receiving acc) (hl : acc.length + l.length = 16) (ha : acc.length < 16) :
    (l.map Symbol.data).foldl (takeSymbol p) s = (s.setReceiver p .hunting).takeFrame p (acc ++ l) := by
  induction l generalizing s acc with
  | nil => simp at hl; omega
  | cons b r ih =>
    simp only [List.map_cons, List.foldl_cons, List.length_cons] at hl ⊢
    by_cases h : acc.length < 15
    · have hstep : takeSymbol p s (.data b) = s.setReceiver p (.receiving (acc ++ [b])) := by
        simp [takeSymbol, hr, h]
      rw [hstep, ih _ (acc ++ [b]) (by simp) (by simp; omega) (by simp; omega)]
      simp
    · have hn : r = [] := List.length_eq_zero_iff.mp (by omega)
      subst hn
      simp [takeSymbol, hr, h]

/-- A frame of sixteen bytes on a HUNTING lane is taken as one frame (R163, R164). -/
theorem receive_frame (s : State) (p : PortId) (l : List Byte) (hreset : s.resetAsserted = false)
    (hr : pick s.receivers p = .hunting) (hl : l.length = 16) :
    s.receive p (frameSymbols l) = s.takeFrame p l := by
  have hstart : takeSymbol p s .start = s.setReceiver p (.receiving []) := by simp [takeSymbol, hr]
  simp only [receive, hreset, frameSymbols, List.foldl_cons, hstart]
  rw [if_neg (by simp), foldl_data p l _ [] (by simp) (by simpa using hl) (by simp)]
  simp [setReceiver_of_pick s p _ hr]

end State

/-! ## The bytes of a CHECK frame -/

@[simp] theorem length_checkBytes (k : CheckKind) (f : CheckFrame) : (f.bytes k).length = 16 := rfl

@[simp] theorem length_releaseBytes (f : ReleaseFrame) : f.bytes.length = 16 := rfl

theorem frameChecks_withCrc (l : List Byte) (h : l.length = 14) :
    State.frameChecks (withCrc l) = true := by
  have h2 := wordAt_append l (bytes2 (crc16 l))
  rw [h] at h2
  have h3 := wordAt_bytes2 (crc16 l) []
  rw [List.append_nil] at h3
  simp [State.frameChecks, withCrc, h, h2, h3, List.take_left' h]

/-- A CHECK frame passes its frame check. -/
@[simp] theorem frameChecks_checkBytes (k : CheckKind) (f : CheckFrame) :
    State.frameChecks (f.bytes k) = true := frameChecks_withCrc _ rfl

/-- A RELEASE frame passes its frame check. -/
@[simp] theorem frameChecks_releaseBytes (f : ReleaseFrame) : State.frameChecks f.bytes = true :=
  frameChecks_withCrc _ rfl

@[simp] theorem frameTag_checkBytes (k : CheckKind) (f : CheckFrame) :
    frameTag (f.bytes k) = f.tag := rfl

@[simp] theorem frameTag_releaseBytes (f : ReleaseFrame) :
    frameTag f.bytes = f.tag := rfl

@[simp] theorem frameToken_releaseBytes (f : ReleaseFrame) :
    frameToken f.bytes = f.token := rfl

@[simp] theorem checkKind_checkBytes (k : CheckKind) (f : CheckFrame) :
    checkKindOf (byteAt (f.bytes k) 0) = some k := by
  cases k <;> rfl

@[simp] theorem access_checkBytes (k : CheckKind) (f : CheckFrame) :
    byteAt (f.bytes k) 7 = f.accessByte := rfl

/-- The request a CHECK frame carries (R24). -/
theorem checkRequest_checkBytes (k : CheckKind) (a : Access) (f : CheckFrame) :
    checkRequest k a (f.bytes k) =
      { kind := k, index := f.index, generation := f.generation, claimed := f.clearance, access := a,
        offset := f.offset, length := f.length } := by
  show CheckRequest.mk k (Fin.ofNat 4096 (f.indexWord.extractLsb' 8 8 ++ f.indexWord.extractLsb' 0 8).toNat)
    (f.generation.extractLsb' 8 8 ++ f.generation.extractLsb' 0 8) _ a
    (f.offset.extractLsb' 24 8 ++ f.offset.extractLsb' 16 8 ++ f.offset.extractLsb' 8 8 ++
      f.offset.extractLsb' 0 8)
    ((f.lengthWord.extractLsb' 8 8 ++ f.lengthWord.extractLsb' 0 8).extractLsb' 0 13) = _
  rw [word2, word2, word2, word4]
  rfl

/-- A CHECK frame with a defined access, under a tag that is not outstanding, on a HUNTING lane of a port
that is not RESETTING, is screened (R166). -/
theorem receive_check (s : State) (p : PortId) (k : CheckKind) (a : Access) (f : CheckFrame)
    (hreset : s.resetAsserted = false) (hr : pick s.receivers p = .hunting)
    (hp : (s.tables.port p).state ≠ .resetting) (ha : accessOf f.accessByte = some a)
    (ht : s.outstanding p (f.tag) = false) :
    s.receive p (frameSymbols (f.bytes k)) =
      s.screen p (f.tag) (checkRequest k a (f.bytes k)) := by
  rw [State.receive_frame s p _ hreset hr rfl]
  have hk : State.kindKnown (f.bytes k) = true := by simp [State.kindKnown]
  have hacc : State.accessKnown (f.bytes k) = true := by simp [State.accessKnown, ha]
  have hf : s.arrivalFault p (f.bytes k) = none := by
    simp [State.arrivalFault, hk, hacc, ht]
  simp [State.takeFrame, hp, hf, State.acceptFrame, ha]

/-- A RELEASE frame under a tag that is not outstanding is taken by the Hold Unit (R166). -/
theorem receive_release (s : State) (p : PortId) (f : ReleaseFrame)
    (hreset : s.resetAsserted = false) (hr : pick s.receivers p = .hunting)
    (hp : (s.tables.port p).state ≠ .resetting)
    (ht : s.outstanding p (f.tag) = false) :
    s.receive p (frameSymbols f.bytes) =
      s.takeRelease p (f.tag) (f.token) := by
  rw [State.receive_frame s p _ hreset hr rfl]
  have hb : byteAt f.bytes 0 = 3 := rfl
  have hk : checkKindOf (byteAt f.bytes 0) = none := rfl
  have hf : s.arrivalFault p f.bytes = none := by
    simp [State.arrivalFault, State.kindKnown, State.accessKnown, hb, ht]
  simp [State.takeFrame, hp, hf, State.acceptFrame, hk]

end Sys2Proof.Machine
end

