-- ==== Sys2Proof/Laws/Management.lean ====
section
/-! SUPPORT. What the write frame of a request comes to: its request is handed over. -/

namespace Sys2Proof.Machine

namespace State

theorem length_requestBody (r : Request) : (requestBody r).length = (requestArgs r).length + 2 := by
  simp [requestBody]

/-- The frame of a request, at an interface that takes write frames, hands the request over (R177). -/
theorem managementFrame_requestFrame (s : State) (r : Request) (h : s.listening) :
    s.managementFrame (requestFrame r) = (s.framed r).handOver r := by
  obtain ⟨hreset, hstart, hidle⟩ := h
  simp only [requestFrame, managementFrame, hreset, hstart, Bool.false_eq_true, if_false, if_true,
    writeFrame, hidle, takeWrite, writeRequest_requestBody]
  simp [framed, shiftOut, length_requestBody, fillBytes]

@[simp] theorem answer_handOver_state (s : State) (r : Request) (st : AnswerStatus) (content : List Byte) :
    ({ s.framed r with iface := .working, engine := some ⟨r, .checking, none, [], none⟩ } : State).answer
      st content = s.answered r st content := rfl

end State

end Sys2Proof.Machine
end

