-- ==== Sys2Proof/Laws/PerInstr.lean ====
section
/-! SUPPORT. A law of every command as syntax: which management request it carries, if any. A request is
carried by one command only (R190). -/

namespace Sys2Proof

/-- The management request a command carries. -/
def Instr.request : Instr → Option Request
  | .resetNAssert => none
  | .resetNRelease => none
  | .startUpWalkEnd => none
  | .probe _ _ => none
  | .hold _ _ => none
  | .release _ _ => none
  | .protocolFault _ _ => none
  | .transmissionStart _ => none
  | .transmissionEnd _ => none
  | .writeFrameRefused _ => none
  | .readFrame _ => none
  | .info => some .info
  | .status => some .status
  | .configure a => some (.configure a)
  | .bindPort a => some (.bindPort a)
  | .unbindPort a => some (.unbindPort a)
  | .portReset a => some (.portReset a)
  | .openDomain a => some (.openDomain a)
  | .setQuota a => some (.setQuota a)
  | .closeDomain a => some (.closeDomain a)
  | .establishData a => some (.establishData a)
  | .establishAlias a => some (.establishAlias a)
  | .amend a => some (.amend a)
  | .suspend a => some (.suspend a)
  | .resume a => some (.resume a)
  | .revoke a => some (.revoke a)
  | .query a => some (.query a)
  | .fetchNotice => some .fetchNotice
  | .tableReset => some .tableReset
  | .jobServiceStart _ => none
  | .bodyReadCompletion _ _ => none
  | .bodyWriteCompletion _ => none
  | .amendReadHalfEnd _ _ => none
  | .amendJobCompletion _ => none
  | .admissionGrant _ => none
  | .refreshTick _ => none
  | .refreshStart _ => none
  | .refreshEnd _ => none
  | .retentionLoss _ => none
  | .epochTick => none
  | .recordExpiry => none
  | .holdTimerExpiry _ _ => none
  | .sweepVisit => none
  | .clearingWalkVisit => none
  | .portResetCompletion _ => none
  | .drainingCompletion _ => none

/-- A request is carried by a command exactly when the command is the one for that request. -/
def Laws.Carried.Statement (i : Instr) : Prop := ∀ r : Request, i.request = some r ↔ r.command = i

namespace Laws.Carried

theorem request_command (r : Request) : r.command.request = some r := by
  cases r <;> rfl

theorem command_of_request (i : Instr) (r : Request) (h : i.request = some r) : r.command = i := by
  cases i <;> first | (cases h; rfl) | exact absurd h (by intro h; cases h)

/-- The law of every command. -/
theorem carried (i : Instr) : Statement i := fun r =>
  ⟨command_of_request i r, fun h => h ▸ request_command r⟩

theorem resetNAssert : Statement .resetNAssert := carried _

theorem resetNRelease : Statement .resetNRelease := carried _

theorem startUpWalkEnd : Statement .startUpWalkEnd := carried _

theorem probe (p : PortId) (f : CheckFrame) : Statement (.probe p f) := carried _

theorem hold (p : PortId) (f : CheckFrame) : Statement (.hold p f) := carried _

theorem release (p : PortId) (f : ReleaseFrame) : Statement (.release p f) := carried _

theorem protocolFault (p : PortId) (symbols : List Symbol) : Statement (.protocolFault p symbols) := carried _

theorem transmissionStart (p : PortId) : Statement (.transmissionStart p) := carried _

theorem transmissionEnd (p : PortId) : Statement (.transmissionEnd p) := carried _

theorem writeFrameRefused (bytes : List Byte) : Statement (.writeFrameRefused bytes) := carried _

theorem readFrame (n : Nat) : Statement (.readFrame n) := carried _

theorem info : Statement .info := carried _

theorem status : Statement .status := carried _

theorem configure (a : ConfigureArgs) : Statement (.configure a) := carried _

theorem bindPort (a : BindPortArgs) : Statement (.bindPort a) := carried _

theorem unbindPort (a : PortArgs) : Statement (.unbindPort a) := carried _

theorem portReset (a : PortArgs) : Statement (.portReset a) := carried _

theorem openDomain (a : QuotaArgs) : Statement (.openDomain a) := carried _

theorem setQuota (a : QuotaArgs) : Statement (.setQuota a) := carried _

theorem closeDomain (a : DomainArgs) : Statement (.closeDomain a) := carried _

theorem establishData (a : EstablishDataArgs) : Statement (.establishData a) := carried _

theorem establishAlias (a : EstablishAliasArgs) : Statement (.establishAlias a) := carried _

theorem amend (a : AmendArgs) : Statement (.amend a) := carried _

theorem suspend (a : HandleArgs) : Statement (.suspend a) := carried _

theorem resume (a : HandleArgs) : Statement (.resume a) := carried _

theorem revoke (a : RevokeArgs) : Statement (.revoke a) := carried _

theorem query (a : QueryArgs) : Statement (.query a) := carried _

theorem fetchNotice : Statement .fetchNotice := carried _

theorem tableReset : Statement .tableReset := carried _

theorem jobServiceStart (b : BankId) : Statement (.jobServiceStart b) := carried _

theorem bodyReadCompletion (b : BankId) (upset : Option StoredBody) : Statement (.bodyReadCompletion b upset) := carried _

theorem bodyWriteCompletion (b : BankId) : Statement (.bodyWriteCompletion b) := carried _

theorem amendReadHalfEnd (b : BankId) (upset : Option StoredBody) : Statement (.amendReadHalfEnd b upset) := carried _

theorem amendJobCompletion (b : BankId) : Statement (.amendJobCompletion b) := carried _

theorem admissionGrant (b : BankId) : Statement (.admissionGrant b) := carried _

theorem refreshTick (b : BankId) : Statement (.refreshTick b) := carried _

theorem refreshStart (b : BankId) : Statement (.refreshStart b) := carried _

theorem refreshEnd (b : BankId) : Statement (.refreshEnd b) := carried _

theorem retentionLoss (b : BankId) : Statement (.retentionLoss b) := carried _

theorem epochTick : Statement .epochTick := carried _

theorem recordExpiry : Statement .recordExpiry := carried _

theorem holdTimerExpiry (p : PortId) (t : Token) : Statement (.holdTimerExpiry p t) := carried _

theorem sweepVisit : Statement .sweepVisit := carried _

theorem clearingWalkVisit : Statement .clearingWalkVisit := carried _

theorem portResetCompletion (p : PortId) : Statement (.portResetCompletion p) := carried _

theorem drainingCompletion (i : Index) : Statement (.drainingCompletion i) := carried _

end Laws.Carried

end Sys2Proof
end

