-- ==== Sys2Proof/WellFormed.lean ====
section
/-! DEFINITION. Which commands are well formed: what a sender can say with each row. The meanings do not
rest on it; an ill-formed command is a row under the wrong name. -/

namespace Sys2Proof

/-- A PROTOCOL_FAULT brings at least one symbol (R163: symbols are what arrives). -/
def symbolsPresent (symbols : List Symbol) : Bool := !symbols.isEmpty

/-- A WRITE_FRAME_REFUSED is not a read frame: its type byte is not 5Ah (R178, R190). -/
def notReadFrame (bytes : List Byte) : Bool := bytes.head? != some 0x5A

/-- The well-formedness check of a command. Every other operand is in range by its type. -/
def Instr.wellFormed : Instr → Bool
  | .protocolFault _ symbols => symbolsPresent symbols
  | .writeFrameRefused bytes => notReadFrame bytes
  | .resetNAssert | .resetNRelease | .startUpWalkEnd => true
  | .probe _ _ | .hold _ _ | .release _ _ => true
  | .transmissionStart _ | .transmissionEnd _ | .readFrame _ => true
  | .info | .status | .configure _ | .bindPort _ | .unbindPort _ | .portReset _ => true
  | .openDomain _ | .setQuota _ | .closeDomain _ => true
  | .establishData _ | .establishAlias _ | .amend _ | .suspend _ | .resume _ | .revoke _ => true
  | .query _ | .fetchNotice | .tableReset => true
  | .jobServiceStart _ | .bodyReadCompletion _ _ | .bodyWriteCompletion _ => true
  | .amendReadHalfEnd _ _ | .amendJobCompletion _ | .admissionGrant _ => true
  | .refreshTick _ | .refreshStart _ | .refreshEnd _ | .retentionLoss _ => true
  | .epochTick | .recordExpiry | .holdTimerExpiry _ _ => true
  | .sweepVisit | .clearingWalkVisit | .portResetCompletion _ | .drainingCompletion _ => true

end Sys2Proof
end

