-- ==== Sys2Proof/Tests/Slice0.lean ====
section
/-! SUPPORT. The model's own tests: which commands the well-formedness check refuses, frames and check codes
written out from chapter 11, and for every statement a state and operands that meet its hypotheses. -/

namespace Sys2Proof.Tests

open Sys2Proof.Machine Sys2Proof.Machine.State

set_option Elab.async false

/-! ## Well-formedness -/

theorem test_protocolFault_without_symbols_illFormed :
    Instr.wellFormed (.protocolFault 0 []) = false := rfl

theorem test_writeFrame_with_read_type_illFormed :
    Instr.wellFormed (.writeFrameRefused [0x5A, 0x01]) = false := by decide

theorem test_wellFormed_neighbours :
    Instr.wellFormed (.protocolFault 0 [.violation]) = true ∧
      Instr.wellFormed (.writeFrameRefused [0xA5, 0x01]) = true ∧
      Instr.wellFormed (.writeFrameRefused []) = true := by decide

/-! ## Bytes (chapter 11) -/

/-- The check value of the CRC-16 of R187: the nine bytes 31h to 39h give 29B1h. -/
theorem test_crc16_check_value :
    crc16 [0x31, 0x32, 0x33, 0x34, 0x35, 0x36, 0x37, 0x38, 0x39] = 0x29B1 := by decide +kernel

/-- A PROBE frame, tag 2, index 4095, generation 0102h, clearance 7, WRITE, offset 64, length 4096, byte by
byte (R189). -/
theorem test_probe_frame_bytes :
    (CheckFrame.bytes .probe ⟨2, 0x0FFF, 0x0102, 7, 2, 64, 4096⟩).take 14 =
      [1, 2, 0x0F, 0xFF, 1, 2, 7, 2, 0, 0, 0, 0x40, 0x10, 0] := by decide +kernel

/-- The write frame of SET_QUOTA of domain 3, quota 4095: type, kind, length, arguments (R190). -/
theorem test_setQuota_frame_bytes :
    (requestFrame (.setQuota ⟨3, 4095⟩)).take 6 = [0xA5, 8, 3, 3, 0x0F, 0xFF] ∧
      (requestFrame (.setQuota ⟨3, 4095⟩)).length = 8 := by decide +kernel

/-- The write frame of REVOKE of index 1 at generation 3, with break (R190). -/
theorem test_revoke_frame_bytes :
    (requestFrame (.revoke ⟨1, 3, 2⟩)).take 8 = [0xA5, 0x0F, 5, 0, 1, 0, 3, 2] := by decide +kernel

/-! ## A small part to test on -/

/-- A LIVE DATA record of domain 0 at generation 3, with alias 2. -/
def dataEntry : StatusEntry :=
  { StatusEntry.freeAt 3 with state := .live, domain := some 0, kind := some .dataKind, aliases := [2] }

/-- A LIVE alias of record 1 at generation 1. -/
def aliasEntry : StatusEntry :=
  { StatusEntry.freeAt 1 with state := .live, domain := some 0, kind := some .aliasKind, target := some 1 }

/-- Domain 0 OPEN with quota 10, port 0 ACTIVE in it, record 1 and its alias 2. -/
def baseTables : Tables :=
  { Tables.reset with
    rst := [(1, dataEntry), (2, aliasEntry)]
    freeList := [3, 4]
    ports := place (Vector.replicate 8 ⟨.unbound, none⟩) 0 ⟨.active, some ⟨0, 7, 10⟩⟩
    domains := place resetDomains 0 ⟨.opened, 10, 2⟩ }

/-- A body: base 64, extent 128, READ and WRITE, SOLE, floor 0, window tag 7. -/
def dataBody : DataBody := ⟨64, 128, ⟨true, true⟩, .sole, 0, 7⟩

/-- A body of an alias: offset 64, extent 64, READ, floor 1, window tag 8. -/
def aliasBody : AliasBody := ⟨64, 64, ⟨true, false⟩, 1, 8⟩

/-- The part READY with `baseTables`, and the bodies of records 1 and 2 in storage. -/
def base : State :=
  { State.reset with
    startWalk := false
    partState := .ready
    tickInterval := some 1000
    tables := baseTables
    storage := [(1, .stored (Body.sealed (.dataBody dataBody))),
      (2, .stored (Body.sealed (.aliasBody aliasBody)))] }

/-- The state after a command. -/
def after (c : Instr) (s : State) : State :=
  match exec c s with
  | .next t => t
  | .fault _ | .refused _ => s

/-- The status of the answer that waits. -/
def status (s : State) : Option AnswerStatus := s.answerBuffer.map Answer.status

/-- The part with one status entry in place of another. -/
def withEntry (s : State) (i : Index) (e : StatusEntry) : State := s.onTables fun T => T.setEntry i e

/-- The part with one hold entry in place of another, alone in the fill order. -/
def withHold (s : State) (p : PortId) (k : Token) (h : HoldEntry) : State :=
  s.onTables fun T => { T.setHold p k h with fillOrder := [(p, k)] }

theorem base_listening : base.listening := by
  refine ⟨rfl, by decide +kernel, rfl⟩

theorem base_hears : base.hears 0 := ⟨rfl, rfl⟩

/-- A frame that names record 1 in full. -/
def frame : CheckFrame := ⟨2, 1, 3, 7, 1, 0, 64⟩

/-- A WRITE hold on record 1. -/
def held : HeldHold := ⟨1, 3, 1, .write, 0, 64, 7, 10⟩

/-- The deny reason at the tail of port 0's outbound queue. -/
def denied (s : State) (p : PortId) : Option DenyReason :=
  match (s.tables.queueOf p).getLast? with
  | some (.answer _ (.deny r)) => some r
  | _ => none

/-! ## The queue, RESET_N and start-up -/

theorem witness_StepTakesFront : State.reset.pending = [] := rfl

theorem witness_ResetHeldStopsAll : Instr.info ≠ .resetNRelease ∧ Instr.info ≠ .resetNAssert := by decide

theorem witness_StartUpRuns :
    (State.heldInReset 0 []).resetAsserted = true ∧ State.reset.resetAsserted = false ∧
      State.reset.startWalk = true := by decide

/-! ## Check links -/

theorem witness_ScreeningDenies :
    base.hears 0 ∧ (base.tables.port 0).state ≠ .resetting ∧ (accessOf frame.accessByte).isSome = true ∧
      base.outstanding 0 frame.tag = false := ⟨base_hears, by decide +kernel⟩

/-- Each test of R26 denies, in a state where those before it pass. -/
theorem test_screening_each_test :
    denied (after (.probe 1 frame) base) 1 = some .portUnbound ∧
    denied (after (.probe 0 frame) (base.onTables fun T => T.setPort 0 ⟨.fenced, some ⟨0, 7, 10⟩⟩)) 0 =
      some .portFenced ∧
    denied (after (.probe 0 frame) { base with partState := .clearing }) 0 = some .clearing ∧
    denied (after (.probe 0 frame) (base.onTables fun T => T.setDomain 0 ⟨.closed, 0, 2⟩)) 0 =
      some .domainClosed ∧
    denied (after (.probe 0 { frame with indexWord := 0 }) base) 0 = some .badIndex ∧
    denied (after (.probe 0 { frame with generation := 4 }) base) 0 = some .stale ∧
    denied (after (.probe 0 { frame with indexWord := 4095, generation := 0 }) base) 0 = some .stale ∧
    denied (after (.probe 0 frame) (withEntry base 1 { dataEntry with domain := some 1 })) 0 =
      some .foreign := by decide +kernel

theorem test_screening_each_state :
    denied (after (.probe 0 frame) (withEntry base 1 { dataEntry with state := .suspended })) 0 =
      some .suspended ∧
    denied (after (.probe 0 frame) (withEntry base 1 { dataEntry with state := .draining })) 0 =
      some .revoked ∧
    denied (after (.probe 0 frame) (withEntry base 1 { dataEntry with state := .damaged })) 0 =
      some .damaged ∧
    denied (after (.hold 0 frame) { base with tables := { baseTables with
      holds := place baseTables.holds 0 (Vector.replicate 8 .reserved) } }) 0 = some .holdFull ∧
    denied (after (.probe 0 frame) { base with tables := { baseTables with
      holds := place baseTables.holds 0 (Vector.replicate 8 .reserved) } }) 0 = none := by decide +kernel

theorem witness_CheckIsScreenedAndReads :
    base.hears 0 ∧ base.tables.port 0 = ⟨.active, some ⟨0, 7, 10⟩⟩ ∧
      accessOf frame.accessByte = some .read ∧ base.outstanding 0 frame.tag = false ∧
      base.partState ≠ .clearing ∧ (base.tables.domain 0).state = .opened ∧ frame.index ≠ 0 ∧
      (base.tables.entry frame.index).state = .live ∧
      (base.tables.entry frame.index).generation = frame.generation ∧
      (base.tables.entry frame.index).domain = some 0 ∧
      (base.tables.entry frame.index).kind = some .dataKind ∧
      (base.bank (bankOf frame.index)).queue.length < 12 := ⟨base_hears, by decide +kernel⟩

theorem test_probe_asks : ((after (.probe 0 frame) base).bank 1).queue = [.bodyRead 1 3 (.slot 0 2)] := by
  decide +kernel

/-- With the hypotheses of `witness_CheckIsScreenedAndReads`; the last token is the only one EMPTY. -/
theorem witness_CheckIsScreenedAndReads_hold :
    ∃ s : State, s.hears 0 ∧ s.tables.port 0 = ⟨.active, some ⟨0, 7, 10⟩⟩ ∧
      (s.tables.entry frame.index).state = .live ∧ s.outstanding 0 frame.tag = false ∧
      s.tables.hold 0 7 = .empty ∧ (∀ t' < (7 : Token), s.tables.hold 0 t' ≠ .empty) ∧
      (after (.hold 0 frame) s).tables.hold 0 7 = .reserved :=
  ⟨{ base with tables := { baseTables with
      holds := place baseTables.holds 0 (place (Vector.replicate 8 .reserved) 7 .empty) } },
    ⟨rfl, rfl⟩, by decide +kernel⟩

/-- `base` with 12 jobs in the queue of bank 1, where record 1 lies. -/
def fullBase : State :=
  base.setBank 1 { Bank.reset with controller := .busy, queue := List.replicate 12 (.bodyRead 17 0 .engine) }

/-- With 12 jobs in the queue the claimants wait: a slot, and the engine. -/
theorem witness_full_queue :
    fullBase.hears 0 ∧ fullBase.listening ∧ 12 ≤ (fullBase.bank (bankOf frame.index)).queue.length ∧
      ((after (.hold 0 frame) fullBase).slot 0 2).map CheckSlot.phase = some .admitting ∧
      pick ((after (.hold 0 frame) fullBase).bank 1).slotsWaiting 0 = [2] ∧
      (after (.hold 0 frame) fullBase).tables.hold 0 0 = .reserved ∧
      ((after (.amend ⟨1, 3, 0, 4, 0, 0, 7, 0, 0, 0⟩) fullBase).bank 1).engineWaiting.isSome = true ∧
      (after (.amend ⟨1, 3, 0, 4, 0, 0, 7, 0, 0, 0⟩) fullBase).engine.map Progress.phase =
        some .admitting :=
  ⟨⟨rfl, rfl⟩, ⟨rfl, by decide +kernel, rfl⟩, by decide +kernel⟩

/-- A HELD entry with READ and WRITE tokens at both ends, a BROKEN one, a RESERVED one, an EMPTY one, and
tokens 8 and 15. -/
theorem witness_ReleaseAnswersByEntry :
    (withHold base 0 7 (.held held)).hears 0 ∧ (base.tables.port 0).state ≠ .resetting ∧
      (withHold base 0 7 (.held held)).outstanding 0 (ReleaseFrame.tag ⟨2, 7, 0⟩) = false ∧
      (ReleaseFrame.token ⟨2, 7, 0⟩).toNat = (7 : Token).val ∧
      (withHold base 0 7 (.held held)).tables.hold 0 7 = .held held ∧
      (base.tables.entry held.index).state ≠ .draining ∧
      (withHold base 0 0 (.broken .timeout true)).tables.hold 0 0 = .broken .timeout true ∧
      (withHold base 0 0 .reserved).tables.hold 0 0 = .reserved ∧ base.tables.hold 0 0 = .empty ∧
      (8 : Nat) ≤ (ReleaseFrame.token ⟨2, 8, 0⟩).toNat ∧ 8 ≤ (ReleaseFrame.token ⟨2, 15, 0⟩).toNat :=
  ⟨⟨rfl, rfl⟩, by decide +kernel⟩

theorem test_release_verdicts :
    (after (.release 0 ⟨2, 7, 0⟩) (withHold base 0 7 (.held held))).tables.queueOf 0 =
      [.answer 2 (.released 7)] ∧
    (after (.release 0 ⟨2, 0, 0⟩) (withHold base 0 0 (.broken .timeout false))).tables.queueOf 0 =
      [.answer 2 (.late 0 .timeout)] ∧
    (after (.release 0 ⟨2, 7, 0⟩) base).tables.queueOf 0 = [.answer 2 (.unknownToken 7)] ∧
    (after (.release 0 ⟨2, 8, 0⟩) base).tables.queueOf 0 = [.answer 2 (.unknownToken 8)] := by
  decide +kernel

/-- The causes of a protocol fault, each by a frame that brings it, a HUNTING and a RECEIVING lane, and the states
of the port. -/
theorem witness_ProtocolFaultFences :
    base.hears 0 ∧
      pick (after (.protocolFault 0 [.start, .data 1]) base).receivers 0 = .receiving [1] ∧
      wordAt (List.replicate 16 1) 14 ≠ crc16 ((List.replicate 16 1).take 14) ∧
      (byteAt (withCrc (List.replicate 14 4)) 0 ∉ ([1, 2, 3] : List Byte) ∧
        wordAt (withCrc (List.replicate 14 4)) 14 = crc16 ((withCrc (List.replicate 14 4)).take 14)) ∧
      (byteAt (CheckFrame.bytes .probe { frame with accessByte := 0 }) 0 ∈ ([1, 2] : List Byte) ∧
        accessOf (byteAt (CheckFrame.bytes .probe { frame with accessByte := 0 }) 7) = none) ∧
      (after (.probe 0 frame) base).outstanding 0 (frameTag (CheckFrame.bytes .probe frame)) = true ∧
      (List.replicate 15 (1 : Byte)).length < 16 ∧
      (base.tables.port 0).state = .active ∧ (base.tables.port 1).state = .unbound :=
  ⟨base_hears, by decide +kernel⟩

theorem test_protocolFault_fences :
    (after (.protocolFault 0 (frameSymbols (List.replicate 16 1))) base).tables.portNotice 0 =
      ⟨true, false, some .frameCheck⟩ ∧
    (after (.protocolFault 0 (frameSymbols (withCrc (List.replicate 14 4)))) base).tables.portNotice 0 =
      ⟨true, false, some .unknownKind⟩ ∧
    (after (.probe 0 frame) (after (.probe 0 frame) base)).tables.portNotice 0 =
      ⟨true, false, some .duplicateTag⟩ ∧
    ((after (.protocolFault 0 [.start, .idle]) base).tables.port 0).state = .fenced := by decide +kernel

/-- A short frame ended by START faults, and the lane goes on RECEIVING the next frame (R163). -/
theorem test_short_frame_ended_by_start :
    ((after (.protocolFault 0 [.start, .data 1, .start]) base).tables.port 0).state = .fenced ∧
    pick (after (.protocolFault 0 [.start, .data 1, .start]) base).receivers 0 = .receiving [] ∧
    ((after (.protocolFault 0 [.start]) (after (.protocolFault 0 [.start, .data 1]) base)).tables.port
      0).state = .fenced := by decide +kernel

/-- Port 0 RESETTING. -/
def resettingBase : State := base.onTables fun T => T.setPort 0 ⟨.resetting, some ⟨0, 7, 10⟩⟩

theorem witness_ResettingPortDiscards : (resettingBase.tables.port 0).state = .resetting := by
  decide +kernel

/-- Port 0 with a BROKEN frame waiting. -/
def brokenBase : State :=
  (withHold base 0 0 (.broken .timeout true)).withFrame 0 (.broken 0 .timeout)

theorem witness_TransmitterSends :
    pick base.transmitters 0 = .idle ∧ base.tables.queueOf 0 = [] ∧
      brokenBase.tables.queueOf 0 = [.broken 0 .timeout] ∧
      pick (after (.transmissionStart 0) brokenBase).transmitters 0 =
        .sending (OutFrame.bytes (.broken 0 .timeout)) ∧
      (after (.transmissionStart 0) brokenBase).tables.hold 0 0 = .broken .timeout false ∧
      pick (after (.transmissionEnd 0) (after (.transmissionStart 0) brokenBase)).transmitters 0 =
        .idle ∧
      State.reset.resetAsserted = false ∧ (State.heldInReset 0 []).resetAsserted = true := by
  decide +kernel

/-- A frame goes out as START and sixteen data symbols, IDLE stands between frames, and RESET_N holds the lane
at rest (R163, R172). -/
theorem test_outwardLane :
    brokenBase.outwardLane 0 = .symbols [.idle] ∧
    (after (.transmissionStart 0) brokenBase).outwardLane 0 =
      .symbols (.start :: (OutFrame.bytes (.broken 0 .timeout)).map .data) ∧
    (after .resetNAssert brokenBase).outwardLane 0 = .rest := by decide +kernel

/-! ## Management frames -/

theorem witness_FramesNotTaken :
    base.resetAsserted = false ∧ base.partState ≠ .starting ∧ (after .info base).iface ≠ .idle ∧
      State.reset.partState = .starting ∧ (0 : Byte) ≠ 0xA5 ∧ (0 : Byte) ≠ 0x5A := by decide +kernel

/-- The shortest write frame is none of the requests, whatever its arguments would be. -/
theorem witness_FramesNotTaken_check :
    base.listening ∧ ¬ ∃ (kind : Byte) (args : List Byte), argLength kind = some args.length ∧
      ([] : List Byte) = kind :: byteNat args.length ::
        (args ++ bytes2 (crc16 (kind :: byteNat args.length :: args))) :=
  ⟨base_listening, by rintro ⟨_, _, _, h⟩; cases h⟩

theorem witness_ReadFrameCollects :
    base.iface ≠ .answerReady ∧ (after .info base).iface = .answerReady ∧
      (after .info base).answerBuffer.map (fun a => a.content.length + 6) = some 20 ∧
      status (after (.readFrame 19) (after .info base)) = some .done ∧
      status (after (.readFrame 20) (after .info base)) = none := by decide +kernel

/-! ## Requests on the part, on ports and on domains -/

theorem witness_listening : base.listening := base_listening

theorem witness_ConfigureSets :
    status (after (.configure ⟨0, 1⟩) base) = some .badArgument ∧
    status (after (.configure ⟨1, 2⟩) base) = some .badArgument ∧
    status (after (.configure ⟨1, 1⟩) base) = some .done ∧
    status (after (.configure ⟨0xFFFF, 0⟩) base) = some .done := by decide +kernel

theorem witness_BindAndUnbind :
    status (after (.bindPort ⟨8, 0, 7, 1⟩) base) = some .badArgument ∧
    status (after (.bindPort ⟨7, 16, 7, 1⟩) base) = some .badArgument ∧
    status (after (.bindPort ⟨7, 0, 8, 1⟩) base) = some .badArgument ∧
    status (after (.bindPort ⟨7, 0, 7, 0⟩) base) = some .badArgument ∧
    status (after (.bindPort ⟨0, 0, 7, 1⟩) base) = some .portBusy ∧
    status (after (.bindPort ⟨7, 1, 7, 1⟩) base) = some .domainState ∧
    status (after (.bindPort ⟨7, 15, 7, 1⟩) base) = some .done := by decide +kernel

theorem witness_Unbind :
    status (after (.unbindPort ⟨8⟩) base) = some .badArgument ∧
    status (after (.unbindPort ⟨7⟩) base) = some .portBusy ∧
    status (after (.unbindPort ⟨0⟩) (withHold base 0 7 (.held held))) = some .portBusy ∧
    status (after (.unbindPort ⟨0⟩) (after (.probe 0 frame) base)) = some .portBusy ∧
    status (after (.unbindPort ⟨0⟩) base) = some .done := by decide +kernel

theorem witness_PortResetBegins :
    status (after (.portReset ⟨8⟩) base) = some .badArgument ∧
    status (after (.portReset ⟨7⟩) base) = some .portBusy ∧
    ((after (.portReset ⟨0⟩) (after (.probe 0 frame) base)).tables.port 0).state = .resetting ∧
    ((after (.portReset ⟨0⟩) base).tables.port 0).state = .active ∧
    status (after (.portReset ⟨0⟩) base) = some .accepted := by decide +kernel

theorem witness_PortResetCompletes :
    (resettingBase.tables.port 0).state = .resetting ∧ (∀ g, resettingBase.slot 0 g = none) ∧
      ((after (.portResetCompletion 0) resettingBase).tables.port 0).state = .active := by decide +kernel

theorem witness_OpenAndSetQuota :
    status (after (.openDomain ⟨16, 0⟩) base) = some .badArgument ∧
    status (after (.openDomain ⟨15, 4096⟩) base) = some .badArgument ∧
    status (after (.openDomain ⟨15, 4095⟩) base) = some .domainState ∧
    status (after (.openDomain ⟨14, 4095⟩) base) = some .done ∧
    status (after (.setQuota ⟨16, 0⟩) base) = some .badArgument ∧
    status (after (.setQuota ⟨0, 4096⟩) base) = some .badArgument ∧
    status (after (.setQuota ⟨14, 4095⟩) base) = some .domainState ∧
    status (after (.setQuota ⟨0, 1⟩) base) = some .quota ∧
    status (after (.setQuota ⟨0, 2⟩) base) = some .done := by decide +kernel

theorem witness_CloseDomainCloses :
    status (after (.closeDomain ⟨16⟩) base) = some .badArgument ∧
    status (after (.closeDomain ⟨15⟩) base) = some .badArgument ∧
    status (after (.closeDomain ⟨14⟩) base) = some .domainState ∧
    status (after (.closeDomain ⟨0⟩) { base with sweep := some ⟨1, 1⟩ }) = some .sweepBusy ∧
    status (after (.closeDomain ⟨0⟩) base) = some .accepted ∧
    (after (.closeDomain ⟨0⟩) (withHold base 0 7 (.held held))).tables.hold 0 7 =
      .broken .domainClosed true := by decide +kernel

/-! ## Establishes -/

/-- An ESTABLISH_DATA that passes every test, at the highest base and the smallest extent. -/
def dataArgs : EstablishDataArgs := ⟨0, 0xFFFFFFFFFFC0, 64, 3, 1, 7, 7, 1, 1⟩

/-- An ESTABLISH_ALIAS of record 1 that passes every test. -/
def aliasArgs : EstablishAliasArgs := ⟨0, 1, 3, 64, 64, 1, 0, 9, 0, 0⟩

theorem witness_EstablishDataRefused :
    status (after (.establishData { dataArgs with domain := 16 }) base) = some .badArgument ∧
    status (after (.establishData { dataArgs with rights := 4 }) base) = some .badArgument ∧
    status (after (.establishData { dataArgs with deadlinePresent := 0 }) base) = some .badArgument ∧
    status (after (.establishData { dataArgs with domain := 1 }) base) = some .domainState ∧
    status (after (.establishData dataArgs) (base.onTables fun T => T.setDomain 0 ⟨.opened, 2, 2⟩)) =
      some .quota ∧
    status (after (.establishData dataArgs) { base with tables := { baseTables with freeList := [] } }) =
      some .tableFull ∧
    status (after (.establishData { dataArgs with extent := 128 }) base) = some .badArgument ∧
    status (after (.establishData { dataArgs with deadline := 0 }) base) = some .badArgument ∧
    status (after (.establishData dataArgs) base) = none := by decide +kernel

theorem witness_EstablishAliasRefused :
    status (after (.establishAlias { aliasArgs with target := 4096 }) base) = some .badArgument ∧
    status (after (.establishAlias { aliasArgs with domain := 1 }) base) = some .domainState ∧
    status (after (.establishAlias { aliasArgs with target := 0 }) base) = some .badArgument ∧
    status (after (.establishAlias { aliasArgs with targetGeneration := 4 }) base) = some .stale ∧
    status (after (.establishAlias { aliasArgs with target := 2, targetGeneration := 1 }) base) =
      some .badArgument ∧
    status (after (.establishAlias aliasArgs)
      (withEntry base 1 { dataEntry with state := .damaged })) = some .state ∧
    status (after (.establishAlias aliasArgs)
      (withEntry base 1 { dataEntry with domain := some 1 })) = some .foreign ∧
    status (after (.establishAlias aliasArgs)
      (withEntry base 1 { dataEntry with aliases := List.replicate 15 2 })) = some .aliasLimit ∧
    status (after (.establishAlias { aliasArgs with offset := 32 }) base) = some .badArgument ∧
    status (after (.establishAlias aliasArgs) base) = none := by decide +kernel

theorem witness_EstablishDataTakesHead :
    base.listening ∧
      establishDataOf dataArgs =
        some (0, ⟨dataArgs.base, dataArgs.extent, ⟨true, true⟩, .sole, 7, dataArgs.tag⟩, some 1) ∧
      (base.tables.domain 0).state = .opened ∧
      (base.tables.domain 0).count < (base.tables.domain 0).quota ∧ base.tables.freeList = 3 :: [4] ∧
      (3 : Index) ≠ 0 ∧
      (DataBody.mk dataArgs.base dataArgs.extent ⟨true, true⟩ .sole 7 dataArgs.tag).inRange = true ∧
      base.epoch < 1 ∧ (base.bank (bankOf 3)).queue.length < 12 := ⟨base_listening, by decide +kernel⟩

theorem witness_EstablishAliasTakesHead :
    base.listening ∧
      establishAliasOf aliasArgs = some (0, 1, ⟨64, 64, ⟨true, false⟩, 0, 9⟩, none) ∧
      base.establishAliasRefusal 0 1 3 ⟨64, 64, ⟨true, false⟩, 0, 9⟩ none = none ∧
      base.tables.freeList = 3 :: [4] ∧ (3 : Index) ≠ 1 ∧
      (base.bank (bankOf 1)).queue.length < 12 := ⟨base_listening, by decide +kernel⟩

/-! ## Requests by handle -/

/-- An AMEND of record 1 that sets the floor. -/
def amendArgs : AmendArgs := ⟨1, 3, 0, 4, 0, 0, 7, 0, 0, 0⟩

theorem witness_AmendRefused :
    status (after (.amend { amendArgs with index := 4096 }) base) = some .badArgument ∧
    status (after (.amend { amendArgs with force := 2 }) base) = some .badArgument ∧
    status (after (.amend { amendArgs with floor := 8 }) base) = some .badArgument ∧
    status (after (.amend { amendArgs with index := 0 }) base) = some .badArgument ∧
    status (after (.amend { amendArgs with generation := 2 }) base) = some .stale ∧
    status (after (.amend amendArgs) (withEntry base 1 { dataEntry with state := .draining })) =
      some .state ∧
    status (after (.amend { amendArgs with mask := 0x80 }) base) = some .badArgument ∧
    status (after (.amend { amendArgs with mask := 0x60, deadline := 1 }) base) = some .badArgument ∧
    status (after (.amend { amendArgs with mask := 0x20, deadline := 0 }) base) = some .badArgument ∧
    status (after (.amend { amendArgs with mask := 8, extent := 64 }) base) = some .referenced := by
  decide +kernel

theorem witness_RevokeRefused :
    status (after (.revoke ⟨4096, 3, 0⟩) base) = some .badArgument ∧
    status (after (.revoke ⟨1, 3, 4⟩) base) = some .badArgument ∧
    status (after (.revoke ⟨0, 0, 3⟩) base) = some .badArgument ∧
    status (after (.revoke ⟨1, 4, 3⟩) base) = some .stale ∧
    status (after (.revoke ⟨1, 3, 3⟩) (withEntry base 1 { dataEntry with state := .draining })) =
      some .state ∧
    status (after (.revoke ⟨1, 3, 2⟩) base) = some .referenced := by decide +kernel

theorem witness_AmendAtAcceptance :
    base.listening ∧ base.epoch < 1 ∧ (base.tables.entry 1).state = .live ∧
      (base.tables.entry 1).generation = amendArgs.generation ∧ amendArgs.force.toNat ≤ 1 ∧
      status (after (.amend { amendArgs with mask := 0x20, deadline := 1 }) base) = some .done ∧
      status (after (.amend { amendArgs with mask := 0x40 }) base) = some .done :=
  ⟨base_listening, by decide +kernel⟩

/-- A body AMEND of the DATA record, and an extent AMEND of the alias. -/
theorem witness_AmendAtAcceptance_job :
    base.listening ∧
      indexOf amendArgs.index = some 1 ∧ flagOf amendArgs.force = some false ∧
      changesOf amendArgs = some ⟨none, none, some 7, none, none, .keep⟩ ∧
      base.amendRefusal 1 3 amendArgs.mask ⟨none, none, some 7, none, none, .keep⟩ = none ∧
      amendArgs.mask.getLsbD 3 = false ∧ (base.bank (bankOf 1)).queue.length < 12 ∧
      ((after (.amend ⟨2, 1, 0, 8, 0, 0, 0, 128, 0, 0⟩) base).bank 1).queue = [.bodyRead 1 3 .engine] :=
  ⟨base_listening, by decide +kernel⟩

theorem witness_SuspendAndResume :
    status (after (.suspend ⟨4096, 3⟩) base) = some .badArgument ∧
    status (after (.suspend ⟨0, 0⟩) base) = some .badArgument ∧
    status (after (.resume ⟨1, 2⟩) base) = some .stale ∧
    status (after (.resume ⟨1, 3⟩) base) = some .state ∧
    ((after (.suspend ⟨1, 3⟩) base).tables.entry 1).state = .suspended ∧
    ((after (.resume ⟨1, 3⟩) (withEntry base 1 { dataEntry with state := .suspended })).tables.entry
      1).state = .live := by decide +kernel

/-- The alias of `base` unpinned, and pinned; and record 1 with its cascade. -/
theorem witness_RevokeRetires :
    base.listening ∧ (base.tables.entry 2).aliases = [] ∧ (base.tables.entry 2).domain = some 0 ∧
      (base.tables.entry 2).target = some 1 ∧ (base.tables.entry 1).state ≠ .draining ∧
      status (after (.revoke ⟨2, 1, 0⟩) base) = some .done ∧
      status (after (.revoke ⟨2, 1, 0⟩) (withEntry base 2 { aliasEntry with pins := 1 })) =
        some .accepted ∧
      status (after (.revoke ⟨1, 3, 3⟩) base) = some .done ∧
      ((after (.revoke ⟨1, 3, 3⟩) base).tables.entry 2).state = .free :=
  ⟨base_listening, by decide +kernel⟩

theorem witness_QueryAnswers :
    status (after (.query ⟨4096⟩) base) = some .badArgument ∧
    status (after (.query ⟨0⟩) base) = some .done ∧
    status (after (.query ⟨4095⟩) base) = some .done ∧
    ((after (.query ⟨1⟩) base).bank 1).queue = [.bodyRead 1 3 .engine] := by decide +kernel

/-- The part with one subject on its Notice List. -/
def noticed (x : Subject) (T : Tables) : State := { base with tables := { T with notices := [x] } }

theorem witness_FetchNoticeRemovesHead :
    status (after .fetchNotice base) = some .emptyList ∧
    (after .fetchNotice (noticed (.record 5) baseTables)).tables.freeList = [3, 4, 5] ∧
    (after .fetchNotice (noticed (.record 1) baseTables)).tables.freeList = [3, 4] ∧
    status (after .fetchNotice (noticed (.port 7) baseTables)) = some .done ∧
    pick (noticed (.domain 14) (baseTables.raiseClosed 14)).tables.domainClosed 14 = true ∧
    pick (noticed (.bank 15) (baseTables.raiseLoss 15)).tables.bankLoss 15 = true := by decide +kernel

/-! ## Checks at their reads -/

/-- The part with the body of record 1 damaged in storage: its check code does not agree. -/
def upsetBase : State := { base with storage := [(1, .stored ⟨.dataBody dataBody, 0⟩)] }

/-- A HOLD of record 1 with WRITE access is being read. -/
def readingHold : State := after (.hold 0 { frame with accessByte := 2 }) base

/-- The slot of that HOLD. -/
def holdSlot : CheckSlot :=
  ⟨⟨.hold, 1, 3, 7, .write, 0, 64⟩, 7, some 0, .dataKind, some 1, ⟨1, 3, none⟩, none, .reading⟩

/-- A direct slot and an alias slot with every read completed. -/
def directSlot : CheckSlot :=
  { holdSlot with named := ⟨1, 3, some ⟨.dataBody dataBody, 0, true⟩⟩ }

def aliasSlot : CheckSlot :=
  { holdSlot with
    kind := .aliasKind
    named := ⟨2, 1, some ⟨.aliasBody aliasBody, 0, true⟩⟩
    targetRead := some ⟨1, 3, some ⟨.dataBody dataBody, 0, true⟩⟩ }

theorem witness_DecisionFollowsOrder :
    directSlot.kind = .dataKind ∧ directSlot.targetRead = none ∧
      directSlot.named.result = some ⟨.dataBody dataBody, 0, true⟩ ∧
      aliasSlot.kind = .aliasKind ∧ aliasSlot.target = some 1 ∧
      aliasSlot.named.result = some ⟨.aliasBody aliasBody, 0, true⟩ ∧
      aliasSlot.targetRead = some ⟨1, 3, some ⟨.dataBody dataBody, 0, true⟩⟩ ∧
      (base.tables.entry 1).state = .live := by decide +kernel

/-- A target read that did not agree, and an alias read that did not: DAMAGED, whatever the bodies hold; and REVOKED
where the target has become DRAINING (R33, R34). -/
theorem witness_DecisionFollowsOrder_mismatch :
    base.decisionReason 0 { aliasSlot with
      request := ⟨.probe, 2, 1, 7, .write, 0, 64⟩
      targetRead := some ⟨1, 3, some ⟨.dataBody dataBody, 0, false⟩⟩ } = some .damaged ∧
    base.decisionReason 0 { aliasSlot with
      request := ⟨.probe, 2, 1, 7, .write, 0, 64⟩
      named := ⟨2, 1, some ⟨.aliasBody aliasBody, 0, false⟩⟩, targetRead := none } = some .damaged ∧
    base.decisionReason 0 { directSlot with named := ⟨1, 3, some ⟨.dataBody dataBody, 0, false⟩⟩ } =
      some .damaged ∧
    (withEntry base 1 { dataEntry with state := .draining }).decisionReason 0 { aliasSlot with
      request := ⟨.probe, 2, 1, 7, .read, 0, 64⟩
      targetRead := some ⟨1, 3, some ⟨.dataBody dataBody, 0, false⟩⟩ } = some .revoked := by
  decide +kernel

/-- Lengths and offsets at the ends of their ranges, and the last tests of the decision. -/
theorem test_decision_bounds :
    base.decisionReason 0 directSlot = none ∧
    base.decisionReason 0 { directSlot with request := ⟨.probe, 1, 3, 7, .read, 64, 64⟩ } = none ∧
    base.decisionReason 0 { directSlot with request := ⟨.probe, 1, 3, 7, .read, 65, 64⟩ } =
      some .range ∧
    base.decisionReason 0 { directSlot with request := ⟨.probe, 1, 3, 7, .read, 0, 0⟩ } =
      some .range ∧
    base.decisionReason 0 { aliasSlot with
      request := ⟨.probe, 2, 1, 7, .write, 0, 64⟩, clearance := 1 } = some .rights ∧
    base.decisionReason 0 { aliasSlot with
      request := ⟨.probe, 2, 1, 7, .write, 0, 64⟩, clearance := 0 } = some .clearance ∧
    (withEntry base 1 { dataEntry with pins := 14 }).decisionReason 0 directSlot = none ∧
    (withEntry base 1 { dataEntry with pins := 15 }).decisionReason 0 directSlot = some .pinLimit ∧
    (withEntry base 1 { dataEntry with writer := some 7 }).decisionReason 0 directSlot =
      some .contended := by decide +kernel

theorem witness_CheckIsDecided :
    (readingHold.bank 1).controller = .busy ∧
      (readingHold.bank 1).queue = [.bodyRead 1 3 (.slot 0 2)] ∧
      claimantWaits (readingHold.bank 1) = false ∧
      (readingHold.slot 0 2).map CheckSlot.kind = some .dataKind ∧
      (readingHold.readBody 1).agreed = true ∧ (readingHold.tables.port 0).state ≠ .resetting ∧
      ((after (.hold 0 frame) upsetBase).readBody 1).agreed = false := by decide +kernel

/-- The place that a completed job frees goes to nobody, to the engine, or to the longest waiting slot. -/
theorem placeGranted_none (s : State) (b : BankId) (rest : List Job)
    (h1 : (s.bank b).engineWaiting = none) (h2 : ∀ p, pick (s.bank b).slotsWaiting p = []) :
    ∃ u, PlaceGranted s u b rest := ⟨_, .inr (.inr ⟨h1, h2, rfl⟩)⟩

theorem placeGranted_engine (s : State) (b : BankId) (rest : List Job) (job : Job)
    (h : (s.bank b).engineWaiting = some job) : ∃ u, PlaceGranted s u b rest :=
  ⟨_, .inl ⟨job, h, rfl⟩⟩

theorem placeGranted_slot (s : State) (b : BankId) (rest : List Job) (n : Fin 8) (g : Tag)
    (gs : List Tag) (x : CheckSlot) (h1 : (s.bank b).engineWaiting = none)
    (h2 : ∀ m : Fin 8, m < n → pick (s.bank b).slotsWaiting ((s.bank b).lastGranted + 1 + m) = [])
    (h3 : pick (s.bank b).slotsWaiting ((s.bank b).lastGranted + 1 + n) = g :: gs)
    (h4 : s.slot ((s.bank b).lastGranted + 1 + n) g = some x) : ∃ u, PlaceGranted s u b rest :=
  ⟨_, .inr (.inl ⟨h1, n, _, g, gs, x, _, rfl, h2, h3, h4, rfl, rfl⟩)⟩

theorem witness_PlaceGranted : ∃ u, PlaceGranted readingHold u 1 [] :=
  placeGranted_none _ _ _ (by decide +kernel) (by decide +kernel)

/-- The last tag of a RESETTING port completes its reset; with another tag outstanding it does not. -/
theorem test_check_decided_on_resetting_port :
    ((after (.bodyReadCompletion 1 none) (after (.portReset ⟨0⟩) readingHold)).tables.port 0).state =
      .active ∧
    (after (.bodyReadCompletion 1 none) (after (.portReset ⟨0⟩) readingHold)).tables.queueOf 0 = [] ∧
    ((after (.bodyReadCompletion 1 none) (after (.portReset ⟨0⟩)
      (after (.hold 0 { frame with tagByte := 3 }) readingHold))).tables.port 0).state = .resetting := by
  decide +kernel

theorem test_checks_decided :
    (after (.bodyReadCompletion 1 none) readingHold).tables.hold 0 0 = .held held ∧
    (after (.bodyReadCompletion 1 none) readingHold).tables.queueOf 0 =
      [.answer 2 (.allow 64 7 (some 0))] ∧
    (after (.bodyReadCompletion 1 none) (after (.hold 0 frame) upsetBase)).tables.queueOf 0 =
      [.answer 2 (.deny .damaged)] ∧
    ((after (.bodyReadCompletion 1 none) (after (.hold 0 frame) upsetBase)).tables.entry 1).state =
      .damaged := by decide +kernel

theorem witness_AllowAndFill :
    (baseTables.port 0).binding = some ⟨0, 7, 10⟩ ∧ directSlot.named.index = 1 ∧
      dataBody.base.toNat = 64 ∧ dataBody.base.toNat + aliasBody.offset.toNat = 128 ∧
      allowVerdict aliasSlot = .allow 128 8 (some 0) := by decide +kernel

/-- A HOLD on record 1 with token 7 and one through its alias with token 0, for the order of frames. -/
def twoHolds : Tables :=
  { (baseTables.setHold 0 7 (.held { held with access := .read })).setHold 0 0
      (.held ⟨2, 1, 1, .read, 0, 64, 7, 10⟩) with
    rst := [(1, { dataEntry with pins := 2 }), (2, { aliasEntry with pins := 1 })]
    fillOrder := [(0, 7), (0, 0)] }

/-- Both records fall in one claim, the one with the higher token first: the frames stand in token order (R63,
R168; log entry 28). -/
theorem test_frames_in_token_order :
    (after (.revoke ⟨1, 3, 3⟩) { base with tables := { twoHolds with
      holds := place twoHolds.holds 0 (place (place (pick twoHolds.holds 0)
        0 (.held { held with access := .read })) 7 (.held ⟨2, 1, 1, .read, 0, 64, 7, 10⟩)) } }).tables.queueOf 0 =
      [.broken 0 .revoked, .broken 7 .revoked] ∧
    (after (.revoke ⟨1, 3, 3⟩) { base with tables := twoHolds }).tables.queueOf 0 =
      [.broken 0 .revoked, .broken 7 .revoked] ∧
    ((after (.revoke ⟨1, 3, 3⟩) { base with tables := twoHolds }).tables.entry 1).state = .free := by
  decide +kernel

/-- Which holds a retirement with break ends: with cascade those of the alias too, without it those that reach the
record itself through the alias (R66, R90). -/
theorem test_retiredTokens :
    retiredTokens twoHolds true 1 0 = [0, 7] ∧ retiredTokens twoHolds false 1 0 = [0, 7] ∧
    retiredTokens twoHolds false 2 0 = [0] ∧ retiredTokens twoHolds true 1 1 = [] ∧
    heldTokens twoHolds 0 = [0, 7] ∧ lostTokens twoHolds 1 0 0 = [0, 7] ∧
    lostTokens twoHolds 2 0 0 = [0] := by decide +kernel

/-- A PROBE through alias 2 is being read. -/
def readingAlias : State := after (.probe 0 ⟨2, 2, 1, 7, 1, 0, 64⟩) base

theorem witness_AliasReadAsksForTarget :
    (readingAlias.bank 2).controller = .busy ∧
      (readingAlias.bank 2).queue = [.bodyRead 2 1 (.slot 0 2)] ∧
      claimantWaits (readingAlias.bank 2) = false ∧
      (readingAlias.slot 0 2).map (fun x => (x.kind, x.target, x.targetRead)) =
        some (.aliasKind, some 1, none) ∧
      (readingAlias.readBody 2).agreed = true ∧ readingAlias.partState ≠ .clearing ∧
      (readingAlias.tables.entry 2).state = .live ∧ (readingAlias.tables.entry 1).state = .live ∧
      (readingAlias.bank (bankOf 1)).queue.length < 12 ∧
      ((after (.bodyReadCompletion 2 none) readingAlias).bank 1).queue =
        [.bodyRead 1 3 (.slot 0 2)] := by decide +kernel

/-- An alias whose target is SUSPENDED is denied at its own read, its last. -/
theorem test_alias_fails_early :
    (withEntry readingAlias 1 { dataEntry with state := .suspended }).earlyDeny 0
      ⟨⟨.probe, 2, 1, 7, .read, 0, 64⟩, 7, none, .aliasKind, some 1, ⟨2, 1, none⟩, none, .reading⟩ 2 1 true =
        some .suspended ∧
    denied (after (.bodyReadCompletion 2 none)
      (withEntry readingAlias 1 { dataEntry with state := .suspended })) 0 = some .suspended := by
  decide +kernel

/-- The target read of a check does not agree: DENY DAMAGED, and the target is DAMAGED (R33, R34). -/
theorem test_target_read_mismatched :
    denied (after (.bodyReadCompletion 1 (some ⟨.dataBody dataBody, 0⟩))
      (after (.bodyReadCompletion 2 none) readingAlias)) 0 = some .damaged ∧
    ((after (.bodyReadCompletion 1 (some ⟨.dataBody dataBody, 0⟩))
      (after (.bodyReadCompletion 2 none) readingAlias)).tables.entry 1).state = .damaged := by
  decide +kernel

/-- Alias 17 of record 1, in one bank with it; its read is at the head of a full queue and the engine waits. -/
def oneBank : State :=
  let s : State := { base with
    tables := { baseTables with rst := [(1, { dataEntry with aliases := [17] }), (17, aliasEntry)] }
    storage := [(1, .stored (Body.sealed (.dataBody dataBody))),
      (17, .stored (Body.sealed (.aliasBody aliasBody)))] }
  let t := after (.probe 0 ⟨2, 17, 1, 7, 1, 0, 64⟩) s
  t.setBank 1 { t.bank 1 with
    queue := (t.bank 1).queue ++ List.replicate 11 (.bodyRead 33 0 .engine)
    engineWaiting := some (.bodyRead 49 0 .engine) }

/-- The engine is granted the place, and the target read waits (R154). -/
theorem test_target_read_waits :
    (oneBank.bank 1).queue.length = 12 ∧
    ((after (.bodyReadCompletion 1 none) oneBank).bank 1).queue.length = 12 ∧
    pick ((after (.bodyReadCompletion 1 none) oneBank).bank 1).slotsWaiting 0 = [2] ∧
    ((after (.bodyReadCompletion 1 none) oneBank).slot 0 2).map CheckSlot.phase = some .admitting := by
  decide +kernel

theorem witness_DamageClaimDamages :
    (baseTables.entry 1).generation ≠ 4 ∧ (baseTables.entry 1).generation = 3 ∧
      (baseTables.entry 1).state = .live ∧ (∀ p k, baseTables.hold p k = .empty) ∧
      ((withHold base 0 7 (.held held)).tables.damageClaim 1 3).hold 0 7 = .broken .damaged true := by
  decide +kernel

/-! ## Jobs of the engine -/

/-- The part with no page in any page buffer of bank `b`. -/
def pageless (s : State) (b : BankId) : State := s.setBank b { s.bank b with openPage := none }

/-- The body of record 3 is being written for ESTABLISH_DATA. -/
def writing : State := pageless (after (.establishData dataArgs) base) 3

theorem witness_BodyWriteResolvesEstablish :
    writing.PagesClean ∧ (writing.bank 3).controller = .busy ∧
      (writing.bank 3).queue.map Job.index = [3] ∧ bankOf 3 = 3 ∧
      (writing.tables.entry 3).state = .pending ∧ (writing.tables.entry 3).generation = 0 ∧
      writing.engine.map Progress.request = some (.establishData dataArgs) ∧
      status (after (.bodyWriteCompletion 3) writing) = some .done ∧
      ((after (.bodyWriteCompletion 3) writing).tables.entry 3).state = .live ∧
      (after (.bodyWriteCompletion 3) writing).tables.expiryQueue = [(1, 3)] :=
  ⟨pagesClean_of_closed _ (by decide +kernel), by decide +kernel⟩

/-- The target of an ESTABLISH_ALIAS is being read. -/
def readingTarget (a : EstablishAliasArgs) (s : State) : State := after (.establishAlias a) s

/-- The body of alias 3 is being written. -/
def writingAlias : State :=
  pageless (pageless (after (.bodyReadCompletion 1 none) (readingTarget aliasArgs base)) 1) 3

theorem witness_BodyWriteResolvesAlias :
    writingAlias.PagesClean ∧ (writingAlias.bank 3).controller = .busy ∧
      (writingAlias.bank 3).queue.map Job.index = [3] ∧
      writingAlias.engine.map Progress.request = some (.establishAlias aliasArgs) ∧
      (writingAlias.tables.entry 1).state = .live ∧
      (writingAlias.tables.entry 1).generation = aliasArgs.targetGeneration ∧
      status (after (.bodyWriteCompletion 3) writingAlias) = some .done ∧
      status (after (.bodyWriteCompletion 3)
        (withEntry writingAlias 1 { dataEntry with state := .damaged })) = some .revoked :=
  ⟨pagesClean_of_closed _ (by decide +kernel), by decide +kernel⟩

theorem witness_AliasEstablishTargetRead :
    ((readingTarget aliasArgs base).bank 1).controller = .busy ∧
      ((readingTarget aliasArgs base).bank 1).queue = [.bodyRead 1 3 .engine] ∧
      claimantWaits ((readingTarget aliasArgs base).bank 1) = false ∧
      (readingTarget aliasArgs base).engine.bind Progress.taken = some (3, 0) ∧
      ((readingTarget aliasArgs base).tables.entry 3).state = .pending ∧
      ((readingTarget aliasArgs base).readBody 1).agreed = true ∧
      ((after (.bodyReadCompletion 1 none) (readingTarget aliasArgs base)).bank 3).queue =
        [.bodyWrite 3 0 (.aliasBody ⟨64, 64, ⟨true, false⟩, 0, 9⟩)] := by decide +kernel

theorem test_establishAlias_target_tests :
    status (after (.bodyReadCompletion 1 none) (withEntry (readingTarget aliasArgs base) 1
      { dataEntry with state := .draining, pins := 1 })) = some .revoked ∧
    status (after (.bodyReadCompletion 1 none) (readingTarget aliasArgs upsetBase)) = some .damaged ∧
    status (after (.bodyReadCompletion 1 none)
      (readingTarget { aliasArgs with extent := 128 } base)) = some .badArgument := by decide +kernel

/-- The damage claim of that read, where the code alone disagreed and where the target was DRAINING (R80). -/
theorem test_establishAlias_target_damage :
    ((after (.bodyReadCompletion 1 none) (readingTarget aliasArgs upsetBase)).tables.entry 1).state =
      .damaged ∧
    ((after (.bodyReadCompletion 1 none) (readingTarget aliasArgs upsetBase)).tables.entry 1).aliases =
      [2] ∧
    ((after (.bodyReadCompletion 1 none) (withEntry (readingTarget aliasArgs upsetBase) 1
      { dataEntry with state := .draining, aliases := [2, 3] })).tables.entry 1).reasons.damaged =
        true := by decide +kernel

/-- The target of an AMEND of alias 2's extent is being read. -/
def readingForAmend (s : State) : State := after (.amend ⟨2, 1, 0, 8, 0, 0, 0, 64, 0, 0⟩) s

theorem witness_AliasAmendTargetRead :
    ((readingForAmend base).bank 1).controller = .busy ∧
      ((readingForAmend base).bank 1).queue = [.bodyRead 1 3 .engine] ∧
      claimantWaits ((readingForAmend base).bank 1) = false ∧
      ((readingForAmend base).readBody 1).agreed = true ∧
      (after (.bodyReadCompletion 1 none) (readingForAmend base)).engine.bind Progress.targetExtent =
        some 128 ∧
      status (after (.bodyReadCompletion 1 none) (readingForAmend upsetBase)) = some .damaged ∧
      status (after (.bodyReadCompletion 1 none)
        (withEntry (readingForAmend base) 1 { dataEntry with state := .draining })) = some .state := by
  decide +kernel

/-- The alias and then its target became FREE while the target was read: the AMEND goes on, with the handle's
generation, and its job finds the alias stale (R84, R85, log entries 21 and 32). -/
theorem test_aliasAmend_both_free :
    let s := after (.bodyReadCompletion 1 none)
      (withEntry (withEntry (readingForAmend base) 2 (.freeAt 2)) 1
        (.freeAt 4))
    (s.bank 2).queue.map Job.generation = [1] ∧
      status (after (.amendReadHalfEnd 2 none) s) = some .stale := by decide +kernel

theorem witness_QueryAnswers_read :
    ((after (.query ⟨1⟩) base).bank 1).controller = .busy ∧
      ((after (.query ⟨1⟩) base).bank 1).queue = [.bodyRead 1 3 .engine] ∧
      (after (.query ⟨1⟩) base).engine.map Progress.request = some (.query ⟨1⟩) ∧
      status (after (.bodyReadCompletion 1 none) (after (.query ⟨1⟩) base)) = some .done ∧
      status (after (.bodyReadCompletion 1 none) (after (.query ⟨1⟩) upsetBase)) = some .damaged := by
  decide +kernel

/-- The AMEND job of record 1 is in its read half; a hold of clearance 6 conflicts with its floor. -/
def amending (s : State) (force : Byte) : State := after (.amend { amendArgs with force := force }) s

/-- `base` with a hold of clearance 6 on record 1. -/
def heldBase : State := withHold base 0 7 (.held { held with clearance := 6 })

theorem witness_AmendJobDecides :
    ((amending base 0).bank 1).controller = .busy ∧ ((amending base 0).bank 1).writeHalf = false ∧
      ((amending base 0).bank 1).queue.map Job.index = [1] ∧
      ((amending base 0).bank 1).openPage.map OpenPage.page = some (pageOf 1) ∧
      ((amending base 0).readBody 1).agreed = true ∧
      (conflictingHolds (amending base 0).tables 1
        (.dataBody { dataBody with floor := 7 })) = [] ∧
      (conflictingHolds (amending heldBase 0).tables 1
        (.dataBody { dataBody with floor := 7 })) = [(0, 7)] := by decide +kernel

/-- A place is granted in each completion claim of the engine's jobs. -/
theorem witness_PlaceGranted_engine :
    (∃ u, PlaceGranted (writing.writeCell 3 (.stored (Body.sealed (.dataBody dataBody)))) u 3 []) ∧
    (∃ u, PlaceGranted (readingTarget aliasArgs base) u 1 []) ∧
    (∃ u, PlaceGranted (readingForAmend base) u 1 []) ∧
    (∃ u, PlaceGranted (after (.query ⟨1⟩) base) u 1 []) ∧
    ∃ u, PlaceGranted (amending base 0) u 1 [] :=
  ⟨placeGranted_none _ _ _ (by decide +kernel) (by decide +kernel),
    placeGranted_none _ _ _ (by decide +kernel) (by decide +kernel),
    placeGranted_none _ _ _ (by decide +kernel) (by decide +kernel),
    placeGranted_none _ _ _ (by decide +kernel) (by decide +kernel),
    placeGranted_none _ _ _ (by decide +kernel) (by decide +kernel)⟩

theorem test_amend_job_outcomes :
    status (after (.amendReadHalfEnd 1 none) (amending upsetBase 0)) = some .damaged ∧
    status (after (.amendReadHalfEnd 1 none) (amending heldBase 0)) = some .conflict ∧
    status (after (.amendReadHalfEnd 1 none) (amending heldBase 1)) = none ∧
    (after (.amendReadHalfEnd 1 none) (amending heldBase 1)).tables.hold 0 7 =
      .broken .amended true ∧
    status (after (.amendReadHalfEnd 1 none)
      (withEntry (amending base 0) 1 { dataEntry with generation := 4 })) = some .stale ∧
    status (after (.amendReadHalfEnd 1 none)
      (withEntry (amending base 0) 1 { dataEntry with state := .draining })) = some .state := by
  decide +kernel

theorem witness_AmendConflicts : heldBase.tables.hold 0 7 = .held { held with clearance := 6 } := by
  decide +kernel

theorem witness_AmendJobCompletes :
    ((after (.amendReadHalfEnd 1 none) (amending base 0)).bank 1).writeHalf = true ∧
      ((after (.amendReadHalfEnd 1 none) (amending base 0)).bank 1).controller = .busy ∧
      status (after (.amendJobCompletion 1) (after (.amendReadHalfEnd 1 none) (amending base 0))) =
        some .done := by decide +kernel

/-! ## Banks -/

/-- The part with bank 0 in this state. -/
def withBank (k : Bank) : State := base.setBank 0 k

/-- Choices at debts 0, 1, 3 and 4, idle and at the end of a refresh. -/
theorem witness_BankServesAndRefreshes :
    (withBank { Bank.reset with queue := [.bodyRead 16 0 .engine], debt := 3 }).PagesClean ∧
      ((after (.jobServiceStart 0)
        (withBank { Bank.reset with queue := [.bodyRead 16 0 .engine], debt := 3 })).bank
          0).controller = .busy ∧
      ((after (.refreshStart 0)
        (withBank { Bank.reset with queue := [.bodyRead 16 0 .engine], debt := 4 })).bank 0).debt = 3 ∧
      ((after (.refreshStart 0) (withBank { Bank.reset with debt := 1 })).bank 0).controller =
        .refreshing ∧
      ((after (.refreshEnd 0) (withBank { Bank.reset with
        controller := .refreshing, debt := 1, urgent := true,
        queue := [.bodyRead 16 0 .engine] })).bank 0).controller = .refreshing ∧
      ((after (.refreshEnd 0) (withBank { Bank.reset with
        controller := .refreshing, debt := 3, queue := [.bodyRead 16 0 .engine] })).bank
          0).controller = .busy ∧
      ((after (.refreshEnd 0) (withBank { Bank.reset with controller := .refreshing })).bank
        0).controller = .idleClosed :=
  ⟨pagesClean_of_closed _ (by decide +kernel), by decide +kernel⟩

theorem witness_RefreshTickCounts :
    base.resetAsserted = false ∧ base.PagesClean ∧ (base.bank 0).debt < 8 ∧
      (base.bank 0).queue = [] ∧
      ((after (.refreshTick 0) (withBank { Bank.reset with controller := .busy, debt := 7 })).bank
        0).debt = 8 ∧
      ((after (.refreshTick 0) base).bank 0).controller = .refreshing ∧
      (after (.refreshTick 0) (withBank { Bank.reset with
        controller := .busy, debt := 8, openPage := some ⟨0, false, []⟩ })).freeCount =
          base.freeCount ∧
      (after (.refreshTick 0) (withBank { Bank.reset with
        controller := .busy, debt := 8, openPage := some ⟨1, false, []⟩ })).freeCount =
          base.freeCount + 1 :=
  ⟨rfl, pagesClean_of_closed _ (by decide +kernel), by decide +kernel⟩

/-- Page 0 of bank 1 is lost, and record 1 with it. -/
theorem test_retentionLoss_damages :
    ((after (.retentionLoss 1) (base.setBank 1 { Bank.reset with controller := .busy, debt := 8 })).tables.entry
      1).state = .damaged ∧
    (after (.retentionLoss 1)
      (base.setBank 1 { Bank.reset with controller := .busy, debt := 8 })).tables.notices =
        [.record 1, .bank 1] := by decide +kernel

/-- A slot of port 7, then of port 0, and the engine. -/
theorem witness_AdmissionGrantsInOrder :
    ((after (.admissionGrant 1) ((after (.probe 0 frame) base).setBank 1 { Bank.reset with
        controller := .busy, slotsWaiting := place Bank.reset.slotsWaiting 0 [2] })).bank
          1).queue = [.bodyRead 1 3 (.slot 0 2)] ∧
      ((after (.admissionGrant 1) ((after (.query ⟨1⟩) base).setBank 1 { Bank.reset with
        controller := .refreshing, engineWaiting := some (.bodyRead 1 3 .engine)
        slotsWaiting := place Bank.reset.slotsWaiting 0 [2] })).bank
          1).queue = [.bodyRead 1 3 .engine] ∧
      (12 : Nat) ≤ (List.replicate 12 (Job.bodyRead 1 3 .engine)).length ∧
      (∀ p, pick (base.bank 0).slotsWaiting p = []) ∧
      (∀ m : Fin 8, m < 7 → pick (place Bank.reset.slotsWaiting 6 [2]) ((7 : Fin 8) + 1 + m) = [] ∨
        m = 6) := by decide +kernel

/-! ## Time, completions and walks -/

/-- The part with record 1 due at epoch 1, and no alias. -/
def dueBase : State := (withEntry base 1
  { dataEntry with aliases := [], deadline := some 1 }).onTables fun T => { T with expiryQueue := [(1, 1)] }

/-- Record 1 and its alias both due: the cascade of the first reaches the alias. -/
def dueAlias : State := (withEntry (withEntry base 1 { dataEntry with deadline := some 1 }) 2
  { aliasEntry with deadline := some 1 }).onTables fun T => { T with expiryQueue := [(1, 1), (1, 2)] }

theorem test_tick_cascades :
    ((after .epochTick dueAlias).tables.entry 1).reasons.expired = true ∧
    ((after .epochTick dueAlias).tables.entry 2).reasons.expired = false ∧
    ((after .epochTick dueAlias).tables.entry 2).state = .free ∧
    (after .epochTick dueAlias).tables.expiryQueue = [] := by decide +kernel

theorem witness_EpochTickAdvances :
    State.reset.tickInterval = none ∧ dueBase.tickInterval ≠ none ∧
      (after .epochTick dueBase).tables.expiryQueue = [] ∧
      ((after .epochTick dueBase).tables.entry 1).state = .free ∧
      (after .epochTick { base with epoch := BitVec.allOnes 48 }).epoch = BitVec.allOnes 48 := by
  decide +kernel

theorem witness_RecordExpiryRetires :
    dueBase.expiryPass = false ∧ dueBase.epoch < 1 ∧
      ((after .recordExpiry { dueBase with expiryPass := true, epoch := 1 }).tables.entry 1).state =
        .free ∧
      ((after .recordExpiry (withEntry { dueBase with expiryPass := true, epoch := 1 } 1
        { dataEntry with aliases := [], pins := 1 })).tables.entry 1).state = .draining := by
  decide +kernel

theorem witness_HoldTimerBreaks :
    (withHold base 0 7 (.held held)).tables.hold 0 7 = .held held ∧
      (base.tables.entry held.index).state = .live ∧ (base.tables.entry held.resolved).state = .live ∧
      base.tables.hold 0 0 = .empty ∧
      (after (.holdTimerExpiry 0 7) (withHold base 0 7 (.held held))).tables.queueOf 0 =
        [.broken 7 .timeout] := by decide +kernel

/-- The alias of `base` DRAINING, and the target DRAINING with it. -/
theorem witness_DrainingCompletes :
    ((after (.drainingCompletion 2)
        (withEntry base 2 { aliasEntry with state := .draining })).tables.entry 2).state = .free ∧
      ((after (.drainingCompletion 2) (withEntry (withEntry base 2 { aliasEntry with state := .draining }) 1
        { dataEntry with state := .draining })).tables.entry 1).state = .free ∧
      ((after (.drainingCompletion 1)
        (withEntry base 1 { dataEntry with state := .draining })).tables.entry 1).state = .draining ∧
      ((after (.holdTimerExpiry 0 7) (withEntry (withHold base 0 7 (.held held)) 1
        { dataEntry with state := .draining, aliases := [], pins := 1 })).tables.entry 1).state = .free ∧
      ((after (.release 0 ⟨2, 7, 0⟩) (withEntry (withHold base 0 7 (.held held)) 1
        { dataEntry with state := .draining, aliases := [], pins := 1 })).tables.entry 1).state =
          .free := by decide +kernel

theorem witness_SweepVisitRetires :
    base.sweep = none ∧
      ((after .sweepVisit { base with sweep := some ⟨0, 1⟩ }).tables.entry 2).state = .free ∧
      (after .sweepVisit { base with sweep := some ⟨0, 4094⟩ }).sweep = some ⟨0, 4095⟩ ∧
      ((after .sweepVisit { base with sweep := some ⟨0, 4095⟩ }).tables.domain 0).state = .closed := by
  decide +kernel

theorem witness_ClearingWalkFrees :
    base.clearWalk = none ∧
      ((after .clearingWalkVisit { base with clearWalk := some 1 }).tables.entry 1) = .freeAt 4 ∧
      ((after .clearingWalkVisit { base with clearWalk := some 1 }).tables.entry 2) = .freeAt 1 ∧
      (after .clearingWalkVisit { base with clearWalk := some 1 }).tables.freeList = [3, 4, 2, 1] ∧
      status (after .clearingWalkVisit { after .tableReset base with clearWalk := some 4095 }) =
        some .done := by decide +kernel

/-! ## The laws are met by a state with a command to run -/

/-- The part held in reset, with its release at the front of the queue. -/
def resetHeld : State := State.heldInReset 0 [.resetNRelease]

theorem witness_step : step resetHeld = .next State.reset := rfl

theorem resetHeld_entry (i : Index) : resetHeld.tables.entry i = .blank := by
  unfold Tables.entry
  split <;> rfl

theorem witness_NoticeLawKept : resetHeld.NoticeLaw := by
  refine ⟨List.nodup_nil, fun x => ?_⟩
  have h : owes resetHeld.tables x = false := by
    cases x with
    | record i => simp only [owes, resetHeld_entry]; rfl
    | port p => simp [owes, resetHeld, heldInReset, Tables.reset, Tables.portNotice, PortNotice.isEmpty]
    | domain d => simp [owes, resetHeld, heldInReset, Tables.reset]
    | bank b => simp [owes, resetHeld, heldInReset, Tables.reset]
  rw [h]
  simp [resetHeld, heldInReset, Tables.reset]

theorem witness_BanksLawKept : resetHeld.BanksLaw := by
  intro b
  simp [BankLaw, State.bank, resetHeld, heldInReset, Bank.reset]

theorem witness_StoreLawKept : resetHeld.Canonical ∧ resetHeld.PagesClean := by
  refine ⟨⟨rfl, by simp [resetHeld, heldInReset, Tables.reset], rfl, fun b op h => ?_⟩, pagesClean_of_closed _ (by decide +kernel)⟩
  simp [State.bank, resetHeld, heldInReset, Bank.reset] at h

theorem witness_LinkLawKept : resetHeld.LinkLaw := by
  have hh : ∀ p k, resetHeld.tables.hold p k = .empty := by decide +kernel
  have hs : ∀ p g, resetHeld.slot p g = none := by decide +kernel
  have hq : ∀ p, resetHeld.tables.queueOf p = [] := by decide +kernel
  refine ⟨⟨fun p t => ?_, fun p g g' x x' t h => ?_⟩, ⟨List.nodup_nil, fun p t => ?_⟩,
    fun p => ⟨fun g => ?_, fun t => ?_⟩⟩
  · simp [hh, hs]
  · simp [hs] at h
  · rw [hh]
    simp [isHeld, resetHeld, heldInReset, Tables.reset]
  · simp [hq, tagInTable, hs]
  · simp [hq, hh, frameWaits]

theorem witness_PartAndDomainLawKept :
    resetHeld.PartLaw ∧ resetHeld.DomainLaw ∧ resetHeld.EngineLaw := by
  refine ⟨⟨by decide, by decide, by decide, fun i h => by cases h⟩,
    ⟨by decide +kernel, by decide +kernel, fun w h => by cases h⟩,
    by decide +kernel, fun h => by cases h⟩

theorem resetHeld_hold (p : PortId) (k : Token) : resetHeld.tables.hold p k = .empty := by
  revert p k
  decide +kernel

theorem resetHeld_resting (i : Index) (p : PortId) : restingTokens resetHeld.tables i p = [] := by
  simp [restingTokens, resetHeld_hold]

theorem mem_allUsable (i : Index) : i ∈ allUsable ↔ i ≠ 0 := by
  simp only [allUsable, List.mem_map, List.mem_range, Fin.ofNat, Fin.ext_iff, Ne]
  have := i.isLt
  constructor
  · rintro ⟨n, hn, h⟩
    show ¬ i.val = 0
    omega
  · intro h
    have h' : ¬ i.val = 0 := h
    exact ⟨i.val - 1, by omega, by omega⟩

theorem nodup_allUsable : allUsable.Nodup := by
  unfold allUsable
  refine List.Nodup.map_on (fun a ha b hb h => ?_) List.nodup_range
  simp only [List.mem_range] at ha hb
  simp only [Fin.ofNat, Fin.ext_iff] at h
  omega

theorem resetHeld_recordLaws : resetHeld.RecordLaws where
  entries := fun i => by
    rw [resetHeld_entry]
    simp [EntryFits, StatusEntry.blank, StatusEntry.freeAt, RecordReasons.empty]
  aliases := by
    refine ⟨fun i a => ?_, fun i => ?_⟩
    · rw [resetHeld_entry, resetHeld_entry]
      simp [StatusEntry.blank, StatusEntry.freeAt]
    · rw [resetHeld_entry]
      simp [StatusEntry.blank, StatusEntry.freeAt]
  freeList := by
    have hf : resetHeld.tables.freeList = allUsable := by
      simp only [resetHeld, heldInReset, Tables.reset]
    unfold FreeListLaw
    rw [hf]
    refine ⟨nodup_allUsable, fun i => ?_⟩
    rw [resetHeld_entry]
    exact (mem_allUsable i).trans ⟨fun h => ⟨h, rfl, rfl⟩, fun h => h.1⟩
  counts := fun d => by
    have h : (fun i => decide ((resetHeld.tables.entry i).state ≠ .free ∧
        (resetHeld.tables.entry i).domain = some d)) = fun _ => false := by
      funext i
      rw [resetHeld_entry]
      simp [StatusEntry.blank, StatusEntry.freeAt]
    have hc : ∀ d, (resetHeld.tables.domain d).count = 0 := by decide +kernel
    rw [hc, h]
    simp [indexCount]
  expiry := by
    refine ⟨fun d i => ?_, fun i h => ?_, List.nodup_nil, List.Pairwise.nil⟩
    · rw [resetHeld_entry]
      simp [resetHeld, heldInReset, Tables.reset, StatusEntry.blank, StatusEntry.freeAt]
    · rw [resetHeld_entry] at h
      simp [StatusEntry.blank, StatusEntry.freeAt] at h
  pins := fun i => by
    rw [resetHeld_entry]
    simp [resetHeld_resting, StatusEntry.blank, StatusEntry.freeAt]
  writers := fun i p h => by
    rw [resetHeld_entry] at h
    simp [StatusEntry.blank, StatusEntry.freeAt] at h
  held := fun p t h hh => by
    rw [resetHeld_hold] at hh
    cases hh
  draining := fun _ i h => by
    rw [resetHeld_entry] at h
    cases h
  reserved := fun p g x h => by
    have hs : ∀ p g, resetHeld.slot p g = none := by decide +kernel
    simp [hs] at h
  clearing := fun _ p k => by
    rw [resetHeld_hold]
    rfl
  cleared := fun c h => by cases h
  starting := fun _ i => resetHeld_entry i

/-- A state that meets every law, with a command to run. -/
theorem witness_AllLaws : resetHeld.AllLaws ∧ step resetHeld = .next State.reset :=
  ⟨⟨resetHeld_recordLaws, witness_NoticeLawKept, witness_LinkLawKept,
    witness_PartAndDomainLawKept.1, witness_PartAndDomainLawKept.2.2⟩, witness_step⟩

/-! ## The laws that statements take as premises, on records and holds -/

/-- `base` with a WRITE hold of port 0 on record 1, counted. -/
def pinnedBase : State :=
  withEntry (withHold base 0 7 (.held held)) 1 { dataEntry with pins := 1, writer := some 0 }

theorem pinned_entry (i : Index) : pinnedBase.tables.entry i =
    if i = 1 then { dataEntry with pins := 1, writer := some 0 } else if i = 2 then aliasEntry
      else .blank := by
  have hb : base.tables.entry i = if i = 1 then dataEntry else if i = 2 then aliasEntry else .blank := by
    have h : base.tables.rst = [(1, dataEntry), (2, aliasEntry)] := rfl
    unfold Tables.entry
    rw [h]
    simp only [Table.get, Fin.ext_iff]
    split_ifs <;> first | rfl | omega
  by_cases h : i = 1
  · subst h
    decide +kernel
  · show ((withHold base 0 7 (.held held)).tables.setEntry 1 _).entry i = _
    rw [Tables.entry_setEntry_ne _ _ _ _ h, if_neg h]
    show base.tables.entry i = _
    rw [hb, if_neg h]

theorem pinned_hold (p : PortId) (k : Token) :
    pinnedBase.tables.hold p k = if p = 0 ∧ k = 7 then .held held else .empty := by
  revert p k
  decide +kernel

/-- The REVOKE of that record with both flags runs where the laws hold, and its holds are BROKEN. -/
theorem witness_RevokeRetires_break :
    pinnedBase.listening ∧ (pinnedBase.tables.entry 1).aliases = [2] ∧
      (pinnedBase.tables.entry 2).state = .live ∧
      status (after (.revoke ⟨1, 3, 3⟩) pinnedBase) = some .done ∧
      (after (.revoke ⟨1, 3, 3⟩) pinnedBase).tables.hold 0 7 = .broken .revoked true ∧
      (after .sweepVisit { pinnedBase with sweep := some ⟨0, 1⟩ }).tables.queueOf 0 =
        [.broken 7 .revoked] :=
  ⟨⟨rfl, by decide +kernel, rfl⟩, by decide +kernel⟩

/-- The premises of ClearingWalkFrees, DamageClaimDamages, TableResetBegins, RefreshTickCounts and of `Retires`. -/
theorem witness_record_premises :
    EntryLaw pinnedBase.tables ∧ AliasLaw pinnedBase.tables ∧ PinLaw pinnedBase.tables ∧
      WriterLaw pinnedBase.tables ∧ FillLaw pinnedBase := by
  refine ⟨fun i => ?_, ⟨fun i a => ?_, fun i => ?_⟩, fun i => ?_, fun i p h => ?_, ?_⟩
  · rw [pinned_entry]
    split_ifs <;> simp [EntryFits, dataEntry, aliasEntry, StatusEntry.blank, StatusEntry.freeAt,
      RecordReasons.empty]
  · have hal : (pinnedBase.tables.entry i).aliases = if i = 1 then [2] else [] := by
      rw [pinned_entry]
      split_ifs <;> rfl
    have htg : (pinnedBase.tables.entry a).target = if a = 2 then some 1 else none := by
      rw [pinned_entry]
      by_cases h1 : a = 1
      · subst h1
        rfl
      · rw [if_neg h1]
        split_ifs <;> rfl
    rw [hal, htg]
    by_cases h1 : i = 1
    · simp [h1, eq_comm]
    · have h1' : ¬ 1 = i := fun h => h1 h.symm
      simp [h1, h1']
  · rw [pinned_entry]
    split_ifs <;> simp [dataEntry, aliasEntry, StatusEntry.blank, StatusEntry.freeAt]
  · have hr : ∀ p, restingTokens pinnedBase.tables i p = if i = 1 ∧ p = 0 then [7] else [] := by
      intro p
      unfold restingTokens
      simp only [pinned_hold]
      by_cases h : i = 1
      · subst h
        revert p
        decide +kernel
      · have h' : (1 : Index) ≠ i := fun e => h e.symm
        rw [if_neg (fun c => h c.1), List.filter_eq_nil_iff]
        intro k _
        split_ifs <;> simp [held, h']
    have hp : (pinnedBase.tables.entry i).pins = if i = 1 then 1 else 0 := by
      rw [pinned_entry]
      split_ifs <;> rfl
    rw [hp]
    simp only [allPorts, List.flatMap_cons, List.flatMap_nil, hr]
    by_cases h : i = 1 <;> simp [h]
  · rw [pinned_entry] at h
    split_ifs at h with h1 h2
    · simp only [Option.some.injEq] at h
      subst h h1
      exact ⟨7, held, by rw [pinned_hold]; rfl, rfl, rfl⟩
    · simp [aliasEntry, StatusEntry.freeAt] at h
    · simp [StatusEntry.blank, StatusEntry.freeAt] at h
  · have hf : pinnedBase.tables.fillOrder = [(0, 7)] := rfl
    refine ⟨by rw [hf]; exact List.nodup_singleton _, fun p t => ?_⟩
    rw [hf, pinned_hold]
    by_cases h : p = 0 ∧ t = 7 <;> simp [h, isHeld]

end Sys2Proof.Tests
end

section
/-! SUPPORT. How a management request is accepted at a listening interface, and what a claim on the records
leaves of the Port Table; then the requests on ports and domains (chapter 7). -/

namespace Sys2Proof.Machine

/-! ## A request in its acceptance claim (R74, R177) -/

namespace State

/-- The state in which the engine takes the acceptance claim of a request: its frame is in, the interface is
WORKING, and the progress record has begun. -/
def acceptance (s : State) (r : Request) : State := s.inProgress r .checking none []

section
variable (s : State) (r : Request)

@[simp] theorem acceptance_tables : (s.acceptance r).tables = s.tables := rfl

@[simp] theorem acceptance_noTags (p : PortId) : (s.acceptance r).noTags p = s.noTags p := rfl

@[simp] theorem acceptance_refuse (st : AnswerStatus) :
    (s.acceptance r).refuse st = s.answered r st [] := rfl

@[simp] theorem acceptance_answerPort (st : AnswerStatus) (p : PortId) :
    (s.acceptance r).answerPort st p = s.answered r st (portEntryBytes p (s.tables.port p)) := rfl

@[simp] theorem acceptance_answerDomain (st : AnswerStatus) (d : DomainId) :
    (s.acceptance r).answerDomain st d = s.answered r st (domainEntryBytes d (s.tables.domain d)) := rfl

/-- A claim on the tables answered with a port's entry: the entry is that of the end of the claim (R131). -/
@[simp] theorem acceptance_onTables_answerPort (f : Tables → Tables) (st : AnswerStatus) (p : PortId) :
    ((s.acceptance r).onTables f).answerPort st p =
      State.answered { s with tables := f s.tables } r st (portEntryBytes p ((f s.tables).port p)) := rfl

/-- A claim on the tables answered with a domain's entry: the entry is that of the end of the claim (R121). -/
@[simp] theorem acceptance_onTables_answerDomain (f : Tables → Tables) (st : AnswerStatus) (d : DomainId) :
    ((s.acceptance r).onTables f).answerDomain st d =
      State.answered { s with tables := f s.tables } r st
        (domainEntryBytes d ((f s.tables).domain d)) := rfl

end

end State

/-- The command of a request brings that request's frame (R190). -/
theorem exec_command (s : State) (r : Request) :
    exec r.command s = .next (s.managementFrame (requestFrame r)) := by
  cases r <;> rfl

/-- At a listening interface the command of a request comes to the request's acceptance claim (R177). -/
theorem exec_command_of_listening (s : State) (r : Request) (h : s.listening) :
    exec r.command s = .next ((s.acceptance r).accept r) := by
  rw [exec_command, State.managementFrame_requestFrame s r h]
  rfl

/-! ## Port and domain numbers (R188) -/

theorem portOf_eq_none {b : Byte} (h : 8 ≤ b.toNat) : portOf b = none :=
  dif_neg (Nat.not_lt.mpr h)

theorem portOf_eq_some {b : Byte} {p : PortId} (h : b.toNat = p.val) : portOf b = some p := by
  simp [portOf, h]

theorem domainOf_eq_none {b : Byte} (h : 16 ≤ b.toNat) : domainOf b = none :=
  dif_neg (Nat.not_lt.mpr h)

theorem domainOf_eq_some {b : Byte} {d : DomainId} (h : b.toNat = d.val) : domainOf b = some d := by
  simp [domainOf, h]

/-! ## What leaves the Port Table as it was -/

namespace Tables

section
variable (T : Tables)

@[simp] theorem setEntry_ports (i : Index) (e : StatusEntry) : (T.setEntry i e).ports = T.ports := by
  rw [setEntry_rest]

@[simp] theorem modEntry_ports (i : Index) (f : StatusEntry → StatusEntry) :
    (T.modEntry i f).ports = T.ports := setEntry_ports T i _

@[simp] theorem raiseRecord_ports (i : Index) (r : RecReason) : (T.raiseRecord i r).ports = T.ports := by
  simp only [raiseRecord]
  split_ifs <;> simp

@[simp] theorem countDownOf_ports (d : Option DomainId) : (T.countDownOf d).ports = T.ports := by
  cases d <;> rfl

@[simp] theorem makeFree_ports (i : Index) : (T.makeFree i).ports = T.ports := by
  simp [makeFree]

@[simp] theorem joinOrPark_ports (i : Index) : (T.joinOrPark i).ports = T.ports := by
  unfold joinOrPark
  split_ifs <;> rfl

@[simp] theorem leaveTarget_ports (i t : Index) : (T.leaveTarget i t).ports = T.ports := modEntry_ports T t _

@[simp] theorem testTarget_ports (skip : Option Index) (t : Index) :
    (testTarget skip T t).ports = T.ports := by
  unfold testTarget
  split_ifs <;> simp

@[simp] theorem becomeFree_ports (skip : Option Index) (i : Index) :
    (becomeFree skip T i).ports = T.ports := by
  simp only [becomeFree, joinOrPark_ports]
  cases (T.entry i).target <;> simp

@[simp] theorem testDraining_ports (skip : Option Index) (i : Index) :
    (testDraining skip T i).ports = T.ports := by
  unfold testDraining
  split_ifs <;> simp

@[simp] theorem testRecords_ports (skip : Option Index) (h : HeldHold) :
    (testRecords skip T h).ports = T.ports := by
  simp only [testRecords]
  split_ifs <;> simp

@[simp] theorem dropPins_ports (h : HeldHold) : (T.dropPins h).ports = T.ports := by
  simp only [dropPins, pinDown]
  split_ifs <;> simp

@[simp] theorem unpin_ports (p : PortId) (t : Token) (h : HeldHold) (next : HoldEntry) :
    (T.unpin p t h next).ports = T.ports := by
  simp only [unpin, setWriter, setHold_ports]
  split_ifs <;> simp

@[simp] theorem withdraw_ports (p : PortId) (t : Token) : (T.withdraw p t).ports = T.ports := rfl

/-! ## The completion of a port reset and the Port Table (R138) -/

/-- Emptying one entry of a port's hold table (R72) touches no port entry. -/
@[simp] theorem resetEntry_ports (p : PortId) (t : Token) : (resetEntry p T t).ports = T.ports := by
  unfold resetEntry
  cases T.hold p t <;> simp

theorem foldl_resetEntry_ports (p : PortId) (l : List Token) :
    (l.foldl (resetEntry p) T).ports = T.ports := by
  induction l generalizing T with
  | nil => rfl
  | cons t l ih => rw [List.foldl_cons, ih, resetEntry_ports]

/-- The completion writes one port entry: the port becomes ACTIVE with its binding kept. -/
theorem completeReset_ports (p : PortId) :
    (T.completeReset p).ports = place T.ports p ⟨.active, (T.port p).binding⟩ := by
  have hports := foldl_resetEntry_ports T p allTokens
  simp [completeReset, raiseResetDone, setPort, port, hports]

end

end Tables

/-! ## PORT_RESET (R136, R138) -/

/-- A port that is neither ACTIVE nor FENCED is UNBOUND or RESETTING. -/
theorem portIdle_eq_false_iff (T : Tables) (p : PortId) :
    State.portIdle T p = false ↔ (T.port p).state = .unbound ∨ (T.port p).state = .resetting := by
  unfold State.portIdle
  cases (T.port p).state <;> simp

theorem portIdle_of_active_or_fenced {T : Tables} {p : PortId}
    (h : (T.port p).state = .active ∨ (T.port p).state = .fenced) : State.portIdle T p = true :=
  decide_eq_true h

theorem mem_allTags (g : Tag) : g ∈ allTags := by
  revert g
  decide

/-- The tag table of a port is empty when every request slot of the port is (R165). -/
theorem noTags_iff (s : State) (p : PortId) : s.noTags p = true ↔ ∀ g, s.slot p g = none := by
  simp [State.noTags, State.tagInTable, mem_allTags]

/-- The tables after the first half of the beginning claim: the port is RESETTING, its binding kept. -/
def resettingTables (T : Tables) (p : PortId) : Tables :=
  { T with ports := place T.ports p ⟨.resetting, (T.port p).binding⟩ }

@[simp] theorem resettingTables_port (T : Tables) (p : PortId) :
    (resettingTables T p).port p = ⟨.resetting, (T.port p).binding⟩ := pick_place_self _ _ _

/-- The entry that the completion in the same claim leaves: ACTIVE, under the binding from before it. -/
theorem completeReset_resettingTables_port (T : Tables) (p : PortId) :
    (Tables.completeReset (resettingTables T p) p).port p = ⟨.active, (T.port p).binding⟩ := by
  rw [Tables.port, Tables.completeReset_ports, pick_place_self, resettingTables_port]

/-- The beginning claim, with a tag in the tag table and with none (R136, R138). -/
theorem beginPortReset_eq (s : State) (p : PortId) :
    s.beginPortReset p =
      if s.noTags p = true then s.onTables fun T => Tables.completeReset (resettingTables T p) p
      else s.onTables fun T => resettingTables T p := by
  have hstate : ((s.onTables fun T => resettingTables T p).tables.port p).state = .resetting := by
    simp [State.onTables]
  have htags : (s.onTables fun T => resettingTables T p).noTags p = s.noTags p := rfl
  change (s.onTables fun T => resettingTables T p).completeIfLast p = _
  simp only [State.completeIfLast, hstate, htags, true_and]
  rfl

theorem exec_portReset (s : State) (a : PortArgs) (h : s.listening) :
    exec (.portReset a) s = .next ((s.acceptance (.portReset a)).acceptPortReset a) :=
  exec_command_of_listening s (.portReset a) h

theorem exec_portReset_of_bad_port (s : State) (a : PortArgs) (h : s.listening) (hp : 8 ≤ a.port.toNat) :
    exec (.portReset a) s = .next (s.answered (.portReset a) .badArgument []) := by
  simp [exec_portReset s a h, State.acceptPortReset, portOf_eq_none hp]

/-- PORT_RESET of a port number in range: the test of the port's state, then the beginning claim. -/
theorem exec_portReset_of_port (s : State) (a : PortArgs) (p : PortId) (h : s.listening)
    (hp : a.port.toNat = p.val) :
    exec (.portReset a) s =
      .next (if State.portIdle s.tables p = false then
          s.answered (.portReset a) .portBusy (portEntryBytes p (s.tables.port p))
        else ((s.acceptance (.portReset a)).beginPortReset p).answerPort .accepted p) := by
  rw [exec_portReset s a h, State.acceptPortReset, portOf_eq_some hp]
  rfl

/-- Settles O18: the port number, then the port's state, then the beginning claim, which completes where no
tag is left. -/
theorem portResetBegins : Obligations.PortResetBegins := by
  intro s a h
  refine ⟨exec_portReset_of_bad_port s a h, fun p hp => ?_⟩
  rw [exec_portReset_of_port s a p h hp]
  refine ⟨fun hbusy => ?_, fun hidle => ?_⟩
  · rw [if_pos ((portIdle_eq_false_iff s.tables p).mpr hbusy)]
  · rw [portIdle_of_active_or_fenced hidle, if_neg Bool.noConfusion, beginPortReset_eq,
      State.acceptance_noTags]
    refine ⟨fun ⟨g, hg⟩ => ?_, fun hnone => ?_⟩
    · have htags : ¬ s.noTags p = true := fun hn => hg ((noTags_iff s p).mp hn g)
      rw [if_neg htags, State.acceptance_onTables_answerPort, resettingTables_port]
      rfl
    · rw [if_pos ((noTags_iff s p).mpr hnone), State.acceptance_onTables_answerPort,
        completeReset_resettingTables_port]
      rfl

/-! ## OPEN_DOMAIN and SET_QUOTA (R124, R125) -/

/-- A domain whose directory entry is written reads as that entry. -/
@[simp] theorem domain_setDomain_self (T : Tables) (d : DomainId) (e : DomainEntry) :
    (T.setDomain d e).domain d = e := pick_place_self _ _ _

theorem exec_openDomain (s : State) (a : QuotaArgs) (h : s.listening) :
    exec (.openDomain a) s = .next ((s.acceptance (.openDomain a)).acceptOpenDomain a) :=
  exec_command_of_listening s (.openDomain a) h

theorem exec_openDomain_of_bad_domain (s : State) (a : QuotaArgs) (h : s.listening)
    (hd : 16 ≤ a.domain.toNat) :
    exec (.openDomain a) s = .next (s.answered (.openDomain a) .badArgument []) := by
  simp [exec_openDomain s a h, State.acceptOpenDomain, domainOf_eq_none hd]

/-- OPEN_DOMAIN of a domain number in range: its tests in order, and its claim. -/
theorem exec_openDomain_of_domain (s : State) (a : QuotaArgs) (d : DomainId) (e : DomainEntry)
    (h : s.listening) (hd : a.domain.toNat = d.val) (he : s.tables.domain d = e) :
    exec (.openDomain a) s =
      .next (if 4095 < a.quota.toNat then
          s.answered (.openDomain a) .badArgument (domainEntryBytes d e)
        else if e.state ≠ .closed then
          s.answered (.openDomain a) .domainState (domainEntryBytes d e)
        else
          State.answered
            { s with tables := s.tables.setDomain d ⟨.opened, a.quota.toNat, e.count⟩ }
            (.openDomain a) .done (domainEntryBytes d ⟨.opened, a.quota.toNat, e.count⟩)) := by
  simp [exec_openDomain s a h, State.acceptOpenDomain, domainOf_eq_some hd, he]

theorem exec_setQuota (s : State) (a : QuotaArgs) (h : s.listening) :
    exec (.setQuota a) s = .next ((s.acceptance (.setQuota a)).acceptSetQuota a) :=
  exec_command_of_listening s (.setQuota a) h

theorem exec_setQuota_of_bad_domain (s : State) (a : QuotaArgs) (h : s.listening)
    (hd : 16 ≤ a.domain.toNat) :
    exec (.setQuota a) s = .next (s.answered (.setQuota a) .badArgument []) := by
  simp [exec_setQuota s a h, State.acceptSetQuota, domainOf_eq_none hd]

/-- SET_QUOTA of a domain number in range: its tests in order, and its claim, which keeps the state. -/
theorem exec_setQuota_of_domain (s : State) (a : QuotaArgs) (d : DomainId) (e : DomainEntry)
    (h : s.listening) (hd : a.domain.toNat = d.val) (he : s.tables.domain d = e) :
    exec (.setQuota a) s =
      .next (if 4095 < a.quota.toNat then
          s.answered (.setQuota a) .badArgument (domainEntryBytes d e)
        else if e.state ≠ .opened then
          s.answered (.setQuota a) .domainState (domainEntryBytes d e)
        else if a.quota.toNat < e.count then
          s.answered (.setQuota a) .quota (domainEntryBytes d e)
        else
          State.answered
            { s with tables := s.tables.setDomain d ⟨e.state, a.quota.toNat, e.count⟩ }
            (.setQuota a) .done (domainEntryBytes d ⟨e.state, a.quota.toNat, e.count⟩)) := by
  simp [exec_setQuota s a h, State.acceptSetQuota, domainOf_eq_some hd, he]

/-- Settles O20: for each request the domain number, then the tests in order, each passed one before the next. -/
theorem openAndSetQuota : Obligations.OpenAndSetQuota := by
  refine ⟨fun s a h => ⟨exec_openDomain_of_bad_domain s a h, fun d hd => ?_⟩,
    fun s a h => ⟨exec_setQuota_of_bad_domain s a h, fun d hd => ?_⟩⟩
  · rw [exec_openDomain_of_domain s a d _ h hd rfl]
    refine ⟨fun hquota => ?_, fun hquota hstate => ?_, fun hquota hstate => ?_⟩
    · rw [if_pos hquota]
    · rw [if_neg (Nat.not_lt.mpr hquota), if_pos hstate]
    · rw [if_neg (Nat.not_lt.mpr hquota), if_neg (not_not.mpr hstate)]
      rfl
  · intro e
    rw [exec_setQuota_of_domain s a d e h hd rfl]
    refine ⟨fun hquota => ?_, fun hquota hstate => ?_, fun hquota hstate hcount => ?_,
      fun hquota hstate hcount => ?_⟩
    · rw [if_pos hquota]
    · rw [if_neg (Nat.not_lt.mpr hquota), if_pos hstate]
    · rw [if_neg (Nat.not_lt.mpr hquota), if_neg (not_not.mpr hstate), if_pos hcount]
    · rw [if_neg (Nat.not_lt.mpr hquota), if_neg (not_not.mpr hstate),
        if_neg (Nat.not_lt.mpr hcount), hstate]
      rfl

end Sys2Proof.Machine
end

section
/-! SUPPORT. The layout of an answer, and what a read frame shifts out and leaves (R178, R187, R190); then INFO,
which is answered in its acceptance claim (R182). -/

namespace Sys2Proof.Machine

/-! ## The bytes of an answer (R187, R190) -/

/-- Status, request kind, content length and content: what the CRC-16 of an answer covers. -/
def answerBody (a : Answer) : List Byte :=
  [a.status.code, a.kind] ++ bytesNat2 a.content.length ++ a.content

theorem answer_bytes (a : Answer) : a.bytes = withCrc (answerBody a) := rfl

@[simp] theorem length_answerBody (a : Answer) : (answerBody a).length = a.content.length + 4 := rfl

@[simp] theorem length_answerBytes (a : Answer) : a.bytes.length = a.content.length + 6 := by
  simp [answer_bytes]

theorem take_length_withCrc (l : List Byte) : (withCrc l).take l.length = l := List.take_left

/-- The two bytes after what the CRC-16 covers are the CRC-16 over it (R187). -/
theorem wordAt_length_withCrc (l : List Byte) : wordAt (withCrc l) l.length = crc16 l := by
  have hcrc := wordAt_bytes2 (crc16 l) []
  rw [List.append_nil] at hcrc
  rw [withCrc, wordAt_append, hcrc]

/-- The length field gives back a length that fits its two bytes. -/
theorem toNat_wordAt_bytesNat2 {n : Nat} (h : n < 65536) (l : List Byte) :
    (wordAt (bytesNat2 n ++ l) 0).toNat = n := by
  rw [bytesNat2, wordAt_bytes2, BitVec.toNat_ofNat, Nat.mod_eq_of_lt h]

/-- The content stands between the four bytes of the header and the CRC-16. -/
theorem content_of_answerBytes (a : Answer) : (a.bytes.drop 4).take a.content.length = a.content :=
  List.take_left

theorem crc_of_answerBytes (a : Answer) :
    wordAt a.bytes (a.content.length + 4) = crc16 (a.bytes.take (a.content.length + 4)) := by
  rw [answer_bytes, ← length_answerBody, take_length_withCrc, wordAt_length_withCrc]

/-! ## Read frames (R178) -/

@[simp] theorem length_fillBytes (n : Nat) : (fillBytes n).length = n := List.length_replicate

/-- The first `n` bytes of an output with fill bytes behind it. -/
theorem take_append_fillBytes (l : List Byte) (n : Nat) :
    (l ++ fillBytes n).take n = l.take n ++ fillBytes (n - l.length) := by
  simp [fillBytes, List.take_append]

namespace State

section
variable {s : State}

theorem answerOut_of_not_ready (h : s.iface ≠ .answerReady) : s.answerOut = [] := by
  unfold answerOut
  split
  · exact absurd ‹_› h
  · rfl

theorem answerOut_of_ready {a : Answer} (h : s.iface = .answerReady) (ha : s.answerBuffer = some a) :
    s.answerOut = a.bytes := by
  simp [answerOut, h, ha]

/-- With no answer ready a read frame shifts out fill bytes, and that is all. -/
theorem readFrame_of_not_ready (n : Nat) (h : s.iface ≠ .answerReady) :
    s.readFrame n = s.shiftOut (fillBytes n) := by
  rw [readFrame, if_neg fun hready => h hready.1, answerOut_of_not_ready h, take_append_fillBytes]
  simp

/-- A read frame at a waiting answer: its output, and whether it ran through the last CRC byte. -/
theorem readFrame_of_ready {a : Answer} (n : Nat) (h : s.iface = .answerReady)
    (ha : s.answerBuffer = some a) :
    s.readFrame n =
      if a.bytes.length ≤ n then
        (s.shiftOut (a.bytes.take n ++ fillBytes (n - a.bytes.length))).endAnswer
      else s.shiftOut (a.bytes.take n ++ fillBytes (n - a.bytes.length)) := by
  simp only [readFrame, answerOut_of_ready h ha, take_append_fillBytes, h, ha, Option.isSome_some,
    true_and]

/-- A read frame that stops before the last CRC byte leaves the answer waiting. -/
theorem readFrame_of_short {a : Answer} {n : Nat} (h : s.iface = .answerReady)
    (ha : s.answerBuffer = some a) (hn : n < a.bytes.length) :
    s.readFrame n = s.shiftOut (a.bytes.take n) := by
  rw [readFrame_of_ready n h ha, if_neg (Nat.not_le.mpr hn), Nat.sub_eq_zero_of_le hn.le]
  simp [fillBytes]

/-- A read frame that runs through the last CRC byte ends the answer. -/
theorem readFrame_of_whole {a : Answer} {n : Nat} (h : s.iface = .answerReady)
    (ha : s.answerBuffer = some a) (hn : a.bytes.length ≤ n) :
    s.readFrame n = (s.shiftOut (a.bytes ++ fillBytes (n - a.bytes.length))).endAnswer := by
  rw [readFrame_of_ready n h ha, if_pos hn, List.take_of_length_le hn]

end

/-- A frame with the type byte READ is a read frame of the bytes after it (R174). -/
theorem managementFrame_read {s : State} (l : List Byte) (hreset : s.resetAsserted = false)
    (hstart : s.partState ≠ .starting) :
    s.managementFrame (readType :: l) = s.readFrame l.length := by
  have hwrite : readType ≠ writeType := by decide
  simp [managementFrame, hreset, hstart, hwrite]

end State

theorem exec_readFrame {s : State} (n : Nat) (hreset : s.resetAsserted = false)
    (hstart : s.partState ≠ .starting) : exec (.readFrame n) s = .next (s.readFrame n) := by
  change Host.Outcome.next (s.managementFrame (readType :: fillBytes n)) = _
  rw [State.managementFrame_read _ hreset hstart, length_fillBytes]

/-- Settles O12: a read frame in its three cases (no answer ready, shorter than the answer, through the last CRC
byte), then the fields of an answer's bytes. -/
theorem readFrameCollects : Obligations.ReadFrameCollects := by
  refine ⟨fun s n hreset hstart => ?_, fun a hlen => ?_⟩
  · rw [exec_readFrame n hreset hstart]
    refine ⟨fun hready => ?_, fun a hready ha => ?_⟩
    · rw [State.readFrame_of_not_ready n hready]
      rfl
    · rw [← length_answerBytes]
      refine ⟨fun hshort => ?_, fun hwhole => ?_⟩
      · rw [State.readFrame_of_short hready ha hshort]
        rfl
      · rw [State.readFrame_of_whole hready ha hwhole]
        rfl
  · exact ⟨length_answerBytes a, rfl, rfl, toNat_wordAt_bytesNat2 hlen a.content,
      content_of_answerBytes a, crc_of_answerBytes a⟩

/-! ## INFO (R182) -/

/-- The fixed content of INFO, byte by byte (R190). -/
theorem infoBytes_eq :
    infoBytes = [0x3A, 0x71, 0x48, 0x16, 1, 0x0F, 0xFF, 8, 16, 32, 8, 12, 8, 16] := by
  decide

/-- An answer placed in the acceptance claim changes nothing but what `answered` names. -/
@[simp] theorem State.acceptance_answer (s : State) (r : Request) (st : AnswerStatus)
    (content : List Byte) : (s.acceptance r).answer st content = s.answered r st content := rfl

theorem exec_info (s : State) (h : s.listening) :
    exec .info s = .next (s.acceptance .info).acceptInfo := exec_command_of_listening s .info h

/-- Settles O13: the acceptance claim of INFO places its answer and does nothing else. -/
theorem infoAnswersIdentity : Obligations.InfoAnswersIdentity := by
  intro s h
  rw [exec_info s h, State.acceptInfo, State.acceptance_answer, infoBytes_eq]

end Sys2Proof.Machine
end

section
/-! SUPPORT. What one step can do: every command comes to one claim of the part, so that a law kept by each claim
is kept by every step. -/

namespace Sys2Proof.Machine

namespace State

/-- `R` holds after every claim that a command can come to from `s`. -/
structure Claims (R : State → Prop) (s : State) : Prop where
  assertReset : R s.assertReset
  releaseReset : R s.releaseReset
  endStartUp : R s.endStartUp
  receive : ∀ p l, R (s.receive p l)
  startTransmission : ∀ p, R (s.startTransmission p)
  endTransmission : ∀ p, R (s.endTransmission p)
  managementFrame : ∀ l, R (s.managementFrame l)
  startService : ∀ b, R (s.startService b)
  completeRead : ∀ b u, R (s.completeRead b u)
  completeWrite : ∀ b, R (s.completeWrite b)
  endReadHalf : ∀ b u, R (s.endReadHalf b u)
  completeAmend : ∀ b, R (s.completeAmend b)
  admitWaiting : ∀ b, R (s.admitWaiting b)
  refreshTick : ∀ b, R (s.refreshTick b)
  startRefresh : ∀ b, R (s.startRefresh b)
  finishRefresh : ∀ b, R (s.finishRefresh b)
  retentionLoss : ∀ b, R (s.retentionLoss b)
  epochTick : R s.epochTick
  expireDue : R s.expireDue
  holdTimerExpiry : ∀ p t, R (s.holdTimerExpiry p t)
  sweepVisit : R s.sweepVisit
  clearingWalkVisit : R s.clearingWalkVisit
  completeIfLast : ∀ p, R (s.completeIfLast p)
  testDraining : ∀ i, R (s.onTables fun T => Tables.testDraining none T i)

/-- Every command comes to one of the claims. -/
theorem Claims.exec {R : State → Prop} {s t : State} {c : Instr} (h : Claims R s)
    (he : exec c s = .next t) : R t := by
  by_cases hr : ∃ r, c.request = some r
  · obtain ⟨r, hr⟩ := hr
    rw [← Laws.Carried.command_of_request c r hr, exec_command] at he
    cases he
    exact h.managementFrame _
  · cases c with
    | resetNAssert => cases he; exact h.assertReset
    | resetNRelease => cases he; exact h.releaseReset
    | startUpWalkEnd => cases he; exact h.endStartUp
    | probe p f => cases he; exact h.receive p _
    | hold p f => cases he; exact h.receive p _
    | release p f => cases he; exact h.receive p _
    | protocolFault p l => cases he; exact h.receive p l
    | transmissionStart p => cases he; exact h.startTransmission p
    | transmissionEnd p => cases he; exact h.endTransmission p
    | writeFrameRefused l => cases he; exact h.managementFrame l
    | readFrame n => cases he; exact h.managementFrame _
    | jobServiceStart b => cases he; exact h.startService b
    | bodyReadCompletion b u => cases he; exact h.completeRead b u
    | bodyWriteCompletion b => cases he; exact h.completeWrite b
    | amendReadHalfEnd b u => cases he; exact h.endReadHalf b u
    | amendJobCompletion b => cases he; exact h.completeAmend b
    | admissionGrant b => cases he; exact h.admitWaiting b
    | refreshTick b => cases he; exact h.refreshTick b
    | refreshStart b => cases he; exact h.startRefresh b
    | refreshEnd b => cases he; exact h.finishRefresh b
    | retentionLoss b => cases he; exact h.retentionLoss b
    | epochTick => cases he; exact h.epochTick
    | recordExpiry => cases he; exact h.expireDue
    | holdTimerExpiry p t => cases he; exact h.holdTimerExpiry p t
    | sweepVisit => cases he; exact h.sweepVisit
    | clearingWalkVisit => cases he; exact h.clearingWalkVisit
    | portResetCompletion p => cases he; exact h.completeIfLast p
    | drainingCompletion i => cases he; exact h.testDraining i
    | _ => exact absurd ⟨_, rfl⟩ hr

/-- A law that every claim keeps is kept by every step. `Q` gathers the laws that the claims lean on; none of them
reads the queue of waiting commands. -/
theorem step_keeps {Q R : State → Prop} (hpending : ∀ s q, Q s → Q { s with pending := q })
    (hidle : ∀ s, Q s → R s) (hclaims : ∀ s, Q s → Claims R s) {s t : State} (hs : Q s)
    (hstep : step s = .next t) : R t := by
  unfold step at hstep
  split at hstep
  · cases hstep
    exact hidle _ hs
  · exact (hclaims _ (hpending _ _ hs)).exec hstep

/-! ## What arrives on a lane, and what a management frame comes to -/

/-- A law that the receiver does not touch is kept by whatever arrives, where every arriving frame keeps it. -/
theorem receive_keeps {P : State → Prop} (p : PortId) (hreceiver : ∀ s r, P s → P (s.setReceiver p r))
    (hframe : ∀ s l, P s → P (s.takeFrame p l)) (s : State) (l : List Symbol) (hs : P s) :
    P (s.receive p l) := by
  have hsymbol : ∀ s y, P s → P (takeSymbol p s y) := by
    intro s y hs
    unfold takeSymbol
    split
    · exact hreceiver _ _ hs
    · exact hs
    · exact hs
    · exact hs
    · split
      · exact hreceiver _ _ hs
      · exact hframe _ _ (hreceiver _ _ hs)
    · exact hframe _ _ (hreceiver _ _ hs)
    · exact hframe _ _ (hreceiver _ _ hs)
    · exact hframe _ _ (hreceiver _ _ hs)
  have hfold : ∀ (l : List Symbol) s, P s → P (l.foldl (takeSymbol p) s) := by
    intro l
    induction l with
    | nil => exact fun s hs => hs
    | cons y l ih => exact fun s hs => ih _ (hsymbol s y hs)
  unfold receive
  split
  · exact hs
  · exact hfold l s hs

/-- An arriving frame is discarded, fences its port, is denied, is screened, or is taken as a RELEASE (R164, R166,
R167). -/
theorem takeFrame_cases (s : State) (p : PortId) (l : List Byte) :
    s.takeFrame p l = s ∨
      (∃ c, s.takeFrame p l = s.onTables fun T => fence T p c) ∨
      (s.outstanding p (frameTag l) = false ∧
        ((∃ r, s.takeFrame p l = s.screen p (frameTag l) r) ∨
          s.takeFrame p l = s.takeRelease p (frameTag l) (frameToken l))) := by
  unfold takeFrame
  split
  · exact Or.inl rfl
  · refine Or.inr ?_
    split
    · exact Or.inl ⟨_, rfl⟩
    · rename_i hfault
      have htag : s.outstanding p (frameTag l) = false := by
        unfold arrivalFault at hfault
        split_ifs at hfault with _ _ _ h4
        simpa using h4
      refine Or.inr ⟨htag, ?_⟩
      unfold acceptFrame
      split
      · exact Or.inl ⟨_, rfl⟩
      · exact Or.inr rfl

/-- What a management frame comes to (R174 to R178): nothing but its output bytes and the refused flag; the end of
an answer that was ready; and, of an IDLE interface, a FRAME_ERROR or the hand-over of a request. -/
theorem managementFrame_cases (s : State) (l : List Byte) :
    (∃ out flag, s.managementFrame l = { s with msdo := out, refused := flag }) ∨
      (∃ out, s.iface = .answerReady ∧ s.partState ≠ .starting ∧
        s.managementFrame l =
          { s with msdo := out, refused := false, answerBuffer := none, iface := .idle }) ∨
      (s.listening ∧ ∃ out a, s.managementFrame l =
        { s with msdo := out, refused := false, answerBuffer := some a, iface := .answerReady }) ∨
      (s.listening ∧ ∃ out b r, s.managementFrame l =
        State.handOver { s with msdo := out, refused := false, requestBuffer := some b } r) := by
  unfold managementFrame
  split
  · exact Or.inl ⟨[], s.refused, rfl⟩
  · split_ifs with hreset hstart hwrite hread
    · exact Or.inl ⟨[], s.refused, rfl⟩
    · exact Or.inl ⟨_, _, rfl⟩
    · unfold writeFrame
      simp only
      split
      · rename_i hidle
        have hl : s.listening := ⟨by simpa using hreset, hstart, hidle⟩
        unfold takeWrite
        split
        · exact Or.inr (Or.inr (Or.inr ⟨hl, _, _, _, rfl⟩))
        · exact Or.inr (Or.inr (Or.inl ⟨hl, _, _, rfl⟩))
      · exact Or.inl ⟨_, _, rfl⟩
      · exact Or.inl ⟨_, _, rfl⟩
    · unfold readFrame
      simp only
      split
      · rename_i h
        exact Or.inr (Or.inl ⟨_, h.1, hstart, rfl⟩)
      · exact Or.inl ⟨_, _, rfl⟩
    · exact Or.inl ⟨_, _, rfl⟩

end State

end Sys2Proof.Machine
end

section
/-! SUPPORT. What a claim on the tables keeps. The operations over the tables are made of a few writes; a property
that these writes keep is kept by every operation. The frame of each operation, and each law that no write of it
disturbs, is an instance. -/

namespace Sys2Proof.Machine

namespace Tables

/-! ## Writes on records -/

/-- The property is kept by the writes that claims on records are made of: a status entry with its reasons as they
were, a reason raised, a domain's count, the free list, and the expiry queue. -/
structure RecordClosed (P : Tables → Prop) : Prop where
  setEntry : ∀ {T : Tables} (i : Index) (e : StatusEntry), P T → e.reasons = (T.entry i).reasons →
    P (T.setEntry i e)
  raiseRecord : ∀ {T : Tables} (i : Index) (r : RecReason), P T → P (T.raiseRecord i r)
  count : ∀ {T : Tables} (d : DomainId) (n : Nat), P T → P (T.setDomain d { T.domain d with count := n })
  freeList : ∀ {T : Tables} (l : List Index), P T → P { T with freeList := l }
  expiryQueue : ∀ {T : Tables} (l : List (Epoch × Index)), P T → P { T with expiryQueue := l }

/-- A retirement after its breaks: the record leaves the expiry queue, and becomes FREE or DRAINING (R90). -/
def finishRetire (T : Tables) (i : Index) : Tables :=
  let T2 := T.leaveQueue i
  if (T2.entry i).pins = 0 ∧ (T2.entry i).aliases = [] then becomeFree none T2 i
  else T2.modEntry i fun e => { e with state := .draining }

theorem retireSelf_eq (brk : Bool) (T : Tables) (i : Index) :
    T.retireSelf brk i = finishRetire
      (if brk then T.breakAll .revoked none (T.heldWhere fun _ _ h => restsOn i h) else T) i := rfl

namespace RecordClosed

variable {P : Tables → Prop} (c : RecordClosed P) {T : Tables}

include c

theorem modEntry (i : Index) (f : StatusEntry → StatusEntry) (hf : ∀ e, (f e).reasons = e.reasons)
    (h : P T) : P (T.modEntry i f) := c.setEntry i _ h (hf _)

theorem leaveQueue (i : Index) (h : P T) : P (T.leaveQueue i) :=
  c.modEntry i _ (fun _ => rfl) (c.expiryQueue _ h)

theorem enterQueue (i : Index) (d : Epoch) (h : P T) : P (T.enterQueue i d) :=
  c.modEntry i (fun e => { e with deadline := some d }) (fun _ => rfl) (c.expiryQueue _ (c.leaveQueue i h))

theorem applyDeadline (i : Index) (x : DeadlineChange) (h : P T) : P (T.applyDeadline i x) := by
  cases x with
  | keep => exact h
  | set d => exact c.enterQueue i d h
  | clear => exact c.leaveQueue i h

theorem countDownOf (d : Option DomainId) (h : P T) : P (T.countDownOf d) := by
  cases d with
  | none => exact h
  | some d => exact c.count d _ h

theorem makeFree (i : Index) (h : P T) : P (T.makeFree i) := by
  refine c.setEntry i _ (c.countDownOf _ h) ?_
  cases (T.entry i).domain <;> rfl

theorem joinOrPark (i : Index) (h : P T) : P (T.joinOrPark i) := by
  unfold Tables.joinOrPark
  split_ifs
  · exact c.freeList _ h
  · exact h

theorem leaveTarget (i t : Index) (h : P T) : P (T.leaveTarget i t) := c.modEntry t _ (fun _ => rfl) h

theorem testTarget (skip : Option Index) (t : Index) (h : P T) : P (testTarget skip T t) := by
  unfold Tables.testTarget
  split_ifs
  · exact c.joinOrPark t (c.makeFree t (c.raiseRecord t _ h))
  · exact h

theorem becomeFree (skip : Option Index) (i : Index) (h : P T) : P (becomeFree skip T i) := by
  refine c.joinOrPark i ?_
  split
  · exact c.testTarget skip _ (c.leaveTarget i _ (c.makeFree i h))
  · exact c.makeFree i h

theorem testDraining (skip : Option Index) (i : Index) (h : P T) : P (testDraining skip T i) := by
  unfold Tables.testDraining
  split_ifs
  · exact c.becomeFree skip i (c.raiseRecord i _ h)
  · exact h

theorem testRecords (skip : Option Index) (x : HeldHold) (h : P T) : P (testRecords skip T x) := by
  unfold Tables.testRecords
  dsimp only
  split_ifs
  · exact c.testDraining skip _ h
  · exact c.testDraining skip _ (c.testDraining skip _ h)

theorem pinUp (i : Index) (h : P T) : P (T.pinUp i) := c.modEntry i _ (fun _ => rfl) h

theorem pinDown (i : Index) (h : P T) : P (T.pinDown i) := c.modEntry i _ (fun _ => rfl) h

theorem setWriter (i : Index) (w : Option PortId) (h : P T) : P (T.setWriter i w) :=
  c.modEntry i _ (fun _ => rfl) h

theorem dropPins (x : HeldHold) (h : P T) : P (T.dropPins x) := by
  unfold Tables.dropPins
  dsimp only
  split_ifs
  · exact c.pinDown _ h
  · exact c.pinDown _ (c.pinDown _ h)

theorem raiseBreak (reason : BreakReason) (damaged : Option Index) (i : Index) (h : P T) :
    P (raiseBreak reason damaged T i) := by
  unfold Tables.raiseBreak
  split_ifs
  · exact c.raiseRecord i _ h
  · exact h

theorem takeHead (i : Index) (rest : List Index) (d : DomainId) (k : RecKind) (target : Option Index)
    (h : P T) : P (T.takeHead i rest d k target) := by
  refine c.count d _ ?_
  cases target with
  | none => exact c.setEntry i _ (c.freeList rest h) rfl
  | some t => exact c.modEntry t _ (fun _ => rfl) (c.setEntry i _ (c.freeList rest h) rfl)

theorem finishRetire (i : Index) (h : P T) : P (T.finishRetire i) := by
  unfold Tables.finishRetire
  dsimp only
  split_ifs
  · exact c.becomeFree none i (c.leaveQueue i h)
  · exact c.modEntry i _ (fun _ => rfl) (c.leaveQueue i h)

/-- A retirement without break writes on records alone. -/
theorem retireSelf_keep (i : Index) (h : P T) : P (T.retireSelf false i) := c.finishRetire i h

theorem cascade_keep (i : Index) (h : P T) : P (T.cascade false i) := by
  unfold Tables.cascade
  generalize (T.entry i).aliases = l
  induction l generalizing T with
  | nil => exact h
  | cons a l ih =>
    refine ih ?_
    unfold cascadeVisit
    split_ifs
    · exact c.retireSelf_keep a h
    · exact h

theorem retire_keep (casc : Bool) (i : Index) (h : P T) : P (T.retire casc false i) := by
  cases casc with
  | false => exact c.retireSelf_keep i h
  | true => exact c.retireSelf_keep i (c.cascade_keep i h)

theorem expire (i : Index) (h : P T) : P (T.expire i) := c.retire_keep true i (c.raiseRecord i _ h)

end RecordClosed

/-! ## Breaks -/

/-- Step 1 to 5 of R55 for a break, with its BROKEN frame where the port takes one (R63): all of a break but the
notice and the tests of the records. -/
def breakUnpin (reason : BreakReason) (T : Tables) (p : PortId) (t : Token) (h : HeldHold) : Tables :=
  let sends := sendsBroken (T.port p).state
  let T1 := T.unpin p t h (.broken reason sends)
  if sends then T1.placeFrame p (.broken t reason) else T1

theorem breakHold_held (reason : BreakReason) (damaged : Option Index) (T : Tables) (x : PortId × Token)
    (h : HeldHold) (hx : T.hold x.1 x.2 = .held h) : breakHold reason damaged T x =
      testRecords damaged (raiseBreak reason damaged (T.breakUnpin reason x.1 x.2 h) h.index) h := by
  unfold breakHold
  rw [hx]
  rfl

/-- The property is kept by writes on records, by the end of a hold in a break, and by the order of a claim's
frames: all that retirements and damage claims are made of. -/
structure BreakClosed (P : Tables → Prop) : Prop extends RecordClosed P where
  breakUnpin : ∀ {T : Tables} (reason : BreakReason) (p : PortId) (t : Token) (h : HeldHold), P T →
    T.hold p t = .held h → P (T.breakUnpin reason p t h)
  orderFrames : ∀ {T : Tables} (T0 : Tables), P T → P (orderFrames T0 T)

namespace BreakClosed

variable {P : Tables → Prop} (c : BreakClosed P) {T : Tables}

include c

theorem breakHold (reason : BreakReason) (damaged : Option Index) (x : PortId × Token) (h : P T) :
    P (breakHold reason damaged T x) := by
  by_cases hx : ∃ y, T.hold x.1 x.2 = .held y
  · obtain ⟨y, hy⟩ := hx
    rw [breakHold_held reason damaged T x y hy]
    exact c.testRecords damaged y (c.raiseBreak reason damaged _ (c.breakUnpin reason _ _ y h hy))
  · rw [breakHold_not_held T reason damaged x fun y hy => hx ⟨y, hy⟩]
    exact h

theorem breakAll (reason : BreakReason) (damaged : Option Index) (xs : List (PortId × Token)) (h : P T) :
    P (T.breakAll reason damaged xs) := by
  unfold Tables.breakAll
  induction xs generalizing T with
  | nil => exact h
  | cons x xs ih => exact ih (c.breakHold reason damaged x h)

theorem retireSelf (brk : Bool) (i : Index) (h : P T) : P (T.retireSelf brk i) := by
  cases brk with
  | false => exact c.retireSelf_keep i h
  | true => exact c.finishRetire i (c.breakAll .revoked none _ h)

theorem cascade (brk : Bool) (i : Index) (h : P T) : P (T.cascade brk i) := by
  unfold Tables.cascade
  generalize (T.entry i).aliases = l
  induction l generalizing T with
  | nil => exact h
  | cons a l ih =>
    refine ih ?_
    unfold cascadeVisit
    split_ifs
    · exact c.retireSelf brk a h
    · exact h

theorem retire (casc brk : Bool) (i : Index) (h : P T) : P (T.retire casc brk i) := by
  have h1 : P ((if casc then T.cascade brk i else T).retireSelf brk i) := by
    refine c.retireSelf brk i ?_
    split_ifs
    · exact c.cascade brk i h
    · exact h
  unfold Tables.retire
  dsimp only
  cases brk with
  | false => exact h1
  | true => exact c.orderFrames T h1

theorem damageClaim (i : Index) (g : Generation) (h : P T) : P (T.damageClaim i g) := by
  unfold Tables.damageClaim
  split_ifs
  · exact h
  · have h1 := c.breakAll .damaged (some i) (T.heldWhere fun _ _ y => restsOn i y) h
    dsimp only
    split
    any_goals exact h
    · exact c.modEntry i _ (fun _ => rfl) (c.raiseRecord i _ (c.leaveQueue i h1))
    · exact c.modEntry i _ (fun _ => rfl) (c.raiseRecord i _ (c.leaveQueue i h1))
    · exact c.testDraining none i (c.raiseRecord i _ h1)

theorem lossClaims (l : List Index) (h : P T) : P (l.foldl State.lossClaim T) := by
  induction l generalizing T with
  | nil => exact h
  | cons i l ih =>
    refine ih ?_
    unfold State.lossClaim
    split_ifs
    · exact h
    · exact c.damageClaim i _ h

theorem damageOfRead (r : ReadRecord) (h : P T) : P (State.damageOfRead T r) := by
  unfold State.damageOfRead
  split_ifs
  · exact c.damageClaim _ _ h
  · exact h

theorem readDamage (x : CheckSlot) (h : P T) : P (State.readDamage T x) := by
  unfold State.readDamage
  split
  · exact c.damageOfRead _ h
  · exact c.orderFrames T (c.damageOfRead _ (c.damageOfRead _ h))

theorem amendWriter (i : Index) (b : Body) (h : P T) : P (State.amendWriter T i b) := by
  unfold State.amendWriter
  split
  · split
    · exact c.setWriter _ _ h
    · exact c.setWriter _ _ h
  · exact h

theorem amendTables (i : Index) (x : AmendChanges) (b : Body) (h : P T) : P (State.amendTables T i x b) :=
  c.applyDeadline i _ (c.amendWriter i b (c.breakAll .amended none _ h))

end BreakClosed

/-! ## Writes on records, holds and outbound queues -/

/-- The property is kept as well by a write of a hold entry, of the fill order and of the outbound queues. -/
structure HoldClosed (P : Tables → Prop) : Prop extends RecordClosed P where
  setHold : ∀ {T : Tables} (p : PortId) (t : Token) (h : HoldEntry), P T → P (T.setHold p t h)
  fillOrder : ∀ {T : Tables} (l : List (PortId × Token)), P T → P { T with fillOrder := l }
  outbound : ∀ {T : Tables} (v : Vector (List OutFrame) 8), P T → P { T with outbound := v }

namespace HoldClosed

variable {P : Tables → Prop} (c : HoldClosed P) {T : Tables}

include c

theorem placeFrame (p : PortId) (f : OutFrame) (h : P T) : P (T.placeFrame p f) := c.outbound _ h

theorem withdraw (p : PortId) (t : Token) (h : P T) : P (T.withdraw p t) := c.outbound _ h

theorem unpin (p : PortId) (t : Token) (x : HeldHold) (next : HoldEntry) (h : P T) :
    P (T.unpin p t x next) := by
  unfold Tables.unpin
  refine c.setHold p t next ?_
  have h1 := c.dropPins x (c.fillOrder (T.fillOrder.erase (p, t)) h)
  split_ifs
  · exact c.setWriter _ none h1
  · exact h1

theorem breaks : BreakClosed P where
  toRecordClosed := c.toRecordClosed
  breakUnpin reason p t x h _ := by
    unfold Tables.breakUnpin
    dsimp only
    split_ifs
    · exact c.placeFrame _ _ (c.unpin _ _ _ _ h)
    · exact c.unpin _ _ _ _ h
  orderFrames _ h := c.outbound _ h

theorem resetEntry (p : PortId) (t : Token) (h : P T) : P (resetEntry p T t) := by
  unfold Tables.resetEntry
  split
  · exact c.testRecords none _ (c.unpin _ _ _ _ h)
  · exact c.setHold _ _ _ (c.withdraw _ _ h)
  · exact c.setHold _ _ _ h
  · exact h

theorem resetEntries (p : PortId) (l : List Token) (h : P T) : P (l.foldl (Tables.resetEntry p) T) := by
  induction l generalizing T with
  | nil => exact h
  | cons t l ih => exact ih (c.resetEntry p t h)

/-! ## Claims of checks and RELEASEs -/

theorem reserve (p : PortId) (tok : Option Token) (h : P T) : P (State.reserve T p tok) := by
  cases tok with
  | none => exact h
  | some t => exact c.setHold p t _ h

theorem fillHold (p : PortId) (t : Token) (x : CheckSlot) (h : P T) : P (State.fillHold T p t x) := by
  unfold State.fillHold
  dsimp only
  refine c.fillOrder _ ?_
  have h2 := c.pinUp (State.heldOf T p x).index (c.setHold p t (.held (State.heldOf T p x)) h)
  have h3 : P (if (State.heldOf T p x).resolved = (State.heldOf T p x).index then
      (T.setHold p t (.held (State.heldOf T p x))).pinUp (State.heldOf T p x).index
      else ((T.setHold p t (.held (State.heldOf T p x))).pinUp (State.heldOf T p x).index).pinUp
        (State.heldOf T p x).resolved) := by
    split_ifs
    · exact h2
    · exact c.pinUp _ h2
  split_ifs at h3 ⊢
  all_goals first | exact c.setWriter _ _ h3 | exact h3

theorem returnEntry (p : PortId) (x : CheckSlot) (h : P T) : P (State.returnEntry T p x) := by
  unfold State.returnEntry
  split
  · exact c.setHold _ _ _ h
  · exact h

theorem settleEntry (p : PortId) (x : CheckSlot) (r : Option DenyReason) (h : P T) :
    P (State.settleEntry T p x r) := by
  unfold State.settleEntry
  split
  · exact c.fillHold _ _ _ h
  · exact c.returnEntry _ _ h

theorem releaseEntry (p : PortId) (t : Token) (h : P T) : P (State.releaseEntry T p t) := by
  unfold State.releaseEntry
  split
  · exact c.testRecords none _ (c.unpin _ _ _ _ h)
  · exact c.setHold _ _ _ (c.withdraw _ _ h)
  · exact h
  · exact h

theorem frameSent (p : PortId) (f : OutFrame) (h : P T) : P (State.frameSent T p f) := by
  unfold State.frameSent
  split
  · exact h
  · split
    · exact c.setHold _ _ _ h
    all_goals exact h

end HoldClosed

/-! ## The frames of the writes -/

/-- Everything that no write on records touches. -/
structure SameHolds (T T' : Tables) : Prop where
  ports : T'.ports = T.ports
  holds : T'.holds = T.holds
  fillOrder : T'.fillOrder = T.fillOrder
  portNotices : T'.portNotices = T.portNotices
  domainClosed : T'.domainClosed = T.domainClosed
  bankLoss : T'.bankLoss = T.bankLoss
  outbound : T'.outbound = T.outbound

theorem SameHolds.refl (T : Tables) : SameHolds T T := ⟨rfl, rfl, rfl, rfl, rfl, rfl, rfl⟩

theorem sameHolds_closed (T0 : Tables) : RecordClosed (SameHolds T0) where
  setEntry i e h _ := by rw [setEntry_rest]; exact ⟨h.1, h.2, h.3, h.4, h.5, h.6, h.7⟩
  raiseRecord i r h := by
    simp only [Tables.raiseRecord]
    split_ifs
    · exact h
    · rw [setEntry_rest]; exact ⟨h.1, h.2, h.3, h.4, h.5, h.6, h.7⟩
    · rw [setEntry_rest]; exact ⟨h.1, h.2, h.3, h.4, h.5, h.6, h.7⟩
  count _ _ h := ⟨h.1, h.2, h.3, h.4, h.5, h.6, h.7⟩
  freeList _ h := ⟨h.1, h.2, h.3, h.4, h.5, h.6, h.7⟩
  expiryQueue _ h := ⟨h.1, h.2, h.3, h.4, h.5, h.6, h.7⟩

theorem SameHolds.hold {T T' : Tables} (h : SameHolds T T') (p : PortId) (t : Token) :
    T'.hold p t = T.hold p t := by
  unfold Tables.hold
  rw [h.holds]

theorem SameHolds.queueOf {T T' : Tables} (h : SameHolds T T') (p : PortId) :
    T'.queueOf p = T.queueOf p := by
  unfold Tables.queueOf
  rw [h.outbound]

/-- Everything that no write on records, holds or outbound queues touches. -/
structure SamePorts (T T' : Tables) : Prop where
  ports : T'.ports = T.ports
  portNotices : T'.portNotices = T.portNotices
  domainClosed : T'.domainClosed = T.domainClosed
  bankLoss : T'.bankLoss = T.bankLoss

theorem SamePorts.refl (T : Tables) : SamePorts T T := ⟨rfl, rfl, rfl, rfl⟩

theorem samePorts_closed (T0 : Tables) : HoldClosed (SamePorts T0) where
  setEntry i e h _ := by rw [setEntry_rest]; exact ⟨h.1, h.2, h.3, h.4⟩
  raiseRecord i r h := by
    simp only [Tables.raiseRecord]
    split_ifs
    · exact h
    · rw [setEntry_rest]; exact ⟨h.1, h.2, h.3, h.4⟩
    · rw [setEntry_rest]; exact ⟨h.1, h.2, h.3, h.4⟩
  count _ _ h := ⟨h.1, h.2, h.3, h.4⟩
  freeList _ h := ⟨h.1, h.2, h.3, h.4⟩
  expiryQueue _ h := ⟨h.1, h.2, h.3, h.4⟩
  setHold _ _ _ h := ⟨h.1, h.2, h.3, h.4⟩
  fillOrder _ h := ⟨h.1, h.2, h.3, h.4⟩
  outbound _ h := ⟨h.1, h.2, h.3, h.4⟩

theorem SamePorts.port {T T' : Tables} (h : SamePorts T T') (p : PortId) : T'.port p = T.port p := by
  unfold Tables.port
  rw [h.ports]

end Tables

end Sys2Proof.Machine
end

section
/-! SUPPORT. What the operations over the banks leave of the rest of the state, and the law of the banks (R142, R143,
R151, R156). -/

namespace Sys2Proof.Machine.State

/-! ## What the operations over the banks touch -/

theorem joinQueue_rest (s : State) (job : Job) :
    s.joinQueue job =
      { s with banks := (s.joinQueue job).banks, storage := (s.joinQueue job).storage } := by
  unfold joinQueue
  dsimp only
  split
  · rw [choicePoint_rest]
    rfl
  · rfl

theorem setSlotPhase_rest (s : State) (p : PortId) (t : Tag) (f : SlotPhase) :
    s.setSlotPhase p t f = { s with slots := (s.setSlotPhase p t f).slots } := by
  unfold setSlotPhase
  split <;> rfl

theorem askSlot_rest (s : State) (p : PortId) (t : Tag) (job : Job) :
    s.askSlot p t job = { s with
      slots := (s.askSlot p t job).slots
      banks := (s.askSlot p t job).banks
      storage := (s.askSlot p t job).storage } := by
  unfold askSlot
  dsimp only
  split
  · rw [joinQueue_rest, setSlotPhase_rest]
  · rw [setSlotPhase_rest]
    rfl

theorem askEngine_rest (s : State) (job : Job) :
    s.askEngine job = { s with
      engine := (s.askEngine job).engine
      banks := (s.askEngine job).banks
      storage := (s.askEngine job).storage } := by
  unfold askEngine
  dsimp only
  split
  · rw [joinQueue_rest]
    rfl
  · rfl

theorem grant_rest (s : State) (b : BankId) :
    s.grant b = { s with
      slots := (s.grant b).slots
      banks := (s.grant b).banks
      engine := (s.grant b).engine } := by
  unfold grant
  dsimp only
  split
  · rfl
  · split
    · unfold grantSlot
      dsimp only
      split
      · rfl
      · rw [setSlotPhase_rest]
        rfl
    · rfl

theorem leaveHead_rest (s : State) (b : BankId) :
    s.leaveHead b = { s with
      slots := (s.leaveHead b).slots
      banks := (s.leaveHead b).banks
      engine := (s.leaveHead b).engine } := by
  unfold leaveHead
  dsimp only
  rw [grant_rest]
  rfl

theorem writeCell_rest (s : State) (i : Index) (c : Cell) :
    s.writeCell i c = { s with
      banks := (s.writeCell i c).banks
      storage := (s.writeCell i c).storage } := by
  unfold writeCell
  split
  · split <;> rfl
  · rfl

theorem decay_rest (s : State) (i : Index) (u : Option StoredBody) :
    s.decay i u = { s with
      banks := (s.decay i u).banks
      storage := (s.decay i u).storage } := by
  unfold decay
  split
  · rfl
  · split
    · rfl
    · dsimp only
      split
      · split <;> rfl
      · rfl

/-! ## What they leave of each bank -/

/-- The bank keeps everything but what its page buffer holds, and the page there stays the same. -/
def SameWork (k k' : Bank) : Prop :=
  ∃ o : Option OpenPage, o.map OpenPage.page = k.openPage.map OpenPage.page ∧ k' = { k with openPage := o }

theorem SameWork.refl (k : Bank) : SameWork k k := ⟨k.openPage, rfl, rfl⟩

theorem sameWork_writeCell (s : State) (i : Index) (c : Cell) (b : BankId) :
    SameWork (s.bank b) ((s.writeCell i c).bank b) := by
  unfold writeCell
  split
  · rename_i op hop
    split
    · rw [bank_setBank]
      split
      · rename_i hb
        subst hb
        exact ⟨_, by simp [hop], rfl⟩
      · exact SameWork.refl _
    · exact SameWork.refl _
  · exact SameWork.refl _

theorem sameWork_decay (s : State) (i : Index) (u : Option StoredBody) (b : BankId) :
    SameWork (s.bank b) ((s.decay i u).bank b) := by
  unfold decay
  split
  · exact SameWork.refl _
  · split
    · exact SameWork.refl _
    · dsimp only
      split
      · rename_i op hop
        split
        · rw [bank_setBank]
          split
          · rename_i hb
            subst hb
            exact ⟨_, by rw [show (s.bank (bankOf i)).openPage = some op from hop]; rfl, rfl⟩
          · exact SameWork.refl _
        · exact SameWork.refl _
      · exact SameWork.refl _

/-- A grant appends at most one job to the bank's queue, and changes who waits there. -/
theorem bank_grant (s : State) (b : BankId) :
    ∃ (l : List Job) (w : Option Job) (v : Vector (List Tag) 8) (p : PortId), l.length ≤ 1 ∧
      ∀ b', (s.grant b).bank b' = if b' = b then { s.bank b with
          queue := (s.bank b).queue ++ l, engineWaiting := w, slotsWaiting := v, lastGranted := p }
        else s.bank b' := by
  have hself : ∀ b', s.bank b' = if b' = b then { s.bank b with
      queue := (s.bank b).queue ++ [], engineWaiting := (s.bank b).engineWaiting,
      slotsWaiting := (s.bank b).slotsWaiting, lastGranted := (s.bank b).lastGranted }
      else s.bank b' := by
    intro b'
    split
    · rename_i hb
      simp [hb]
    · rfl
  unfold grant
  dsimp only
  split
  · rename_i job _
    exact ⟨[job], none, (s.bank b).slotsWaiting, (s.bank b).lastGranted, by simp, fun b' =>
      bank_setBank s b b' _⟩
  · split
    · rename_i p _
      unfold grantSlot
      dsimp only
      split
      · exact ⟨[], _, _, _, by simp, hself⟩
      · rename_i t rest _
        refine ⟨(s.slotJob p t).toList, (s.bank b).engineWaiting, place (s.bank b).slotsWaiting p rest, p,
          ?_, fun b' => ?_⟩
        · cases s.slotJob p t <;> simp
        · rw [setSlotPhase_rest]
          exact bank_setBank s b b' _
    · exact ⟨[], _, _, _, by simp, hself⟩

/-! ## A bank between its completion and its choice -/

/-- The law of a bank, or, of the bank `left` whose head job has just left it, what remains of the law until the
choice at the end of the claim. -/
def BankOk (left : Option BankId) (b : BankId) (k : Bank) : Prop :=
  if left = some b then
    k.controller = .busy ∧ k.debt ≤ 8 ∧ k.queue.length ≤ 12 ∧ k.urgent = false ∧ k.underRefresh = none
  else BankLaw k

/-- Every bank keeps its law but `left`, which is between a completion and its choice. -/
def BanksOk (left : Option BankId) (s : State) : Prop := ∀ b, BankOk left b (s.bank b)

theorem banksOk_none (s : State) : BanksOk none s ↔ s.BanksLaw := by
  simp [BanksOk, BankOk, BanksLaw]

theorem bankLaw_of_sameWork {k k' : Bank} (h : SameWork k k') (hk : BankLaw k) : BankLaw k' := by
  obtain ⟨o, ho, rfl⟩ := h
  have hnone : k.openPage = none → o = none := fun hk => by simpa [hk] using ho
  have hsome : k.openPage.isSome = true → o.isSome = true := fun hk => by
    rw [← Option.isSome_map (f := OpenPage.page), ho, Option.isSome_map, hk]
  obtain ⟨hdebt, hqueue, hctrl⟩ := hk
  refine ⟨hdebt, hqueue, ?_⟩
  cases hc : k.controller <;> simp only [hc] at hctrl ⊢
  · exact ⟨hnone hctrl.1, hctrl.2⟩
  · exact ⟨hsome hctrl.1, hctrl.2⟩
  · simpa only [ho] using hctrl
  · exact ⟨hnone hctrl.1, hctrl.2⟩

theorem bankOk_of_sameWork {left : Option BankId} {b : BankId} {k k' : Bank} (h : SameWork k k')
    (hk : BankOk left b k) : BankOk left b k' := by
  unfold BankOk at hk ⊢
  split_ifs at hk ⊢
  · obtain ⟨o, _, rfl⟩ := h
    exact hk
  · exact bankLaw_of_sameWork h hk

/-- A bank at work takes a job at its tail, and who waits there may change. -/
theorem bankOk_append {left : Option BankId} {b : BankId} {k : Bank} (hk : BankOk left b k)
    (hidle : isIdle k.controller = false) (l : List Job) (hl : k.queue.length + l.length ≤ 12)
    (w : Option Job) (v : Vector (List Tag) 8) (p : PortId) :
    BankOk left b { k with queue := k.queue ++ l, engineWaiting := w, slotsWaiting := v, lastGranted := p } := by
  have hlen : (k.queue ++ l).length ≤ 12 := by simpa using hl
  unfold BankOk at hk ⊢
  split_ifs at hk ⊢
  · exact ⟨hk.1, hk.2.1, hlen, hk.2.2.2⟩
  · obtain ⟨hdebt, hqueue, hctrl⟩ := hk
    refine ⟨hdebt, hlen, ?_⟩
    cases hc : k.controller <;> simp only [hc] at hctrl hidle ⊢
    · simp [isIdle] at hidle
    · simp [isIdle] at hidle
    · obtain ⟨⟨job, rest, hq, hpage⟩, hrest⟩ := hctrl
      exact ⟨⟨job, rest ++ l, by simp [hq], hpage⟩, hrest⟩
    · exact hctrl

/-- A bank at its choice: the limits of R142 and R151, and no refresh under way. -/
def BankReady (k : Bank) : Prop :=
  k.debt ≤ 8 ∧ k.queue.length ≤ 12 ∧ (k.urgent = true → 0 < k.debt) ∧ k.underRefresh = none

/-- The choice of a bank that is ready for it leaves the bank in its law (R143, R156). -/
theorem bankLaw_of_choiceMade {k t : Bank} (hc : ChoiceMade k t) (hk : BankReady k) : BankLaw t := by
  obtain ⟨hdebt, hqueue, hurgent, hunder⟩ := hk
  unfold ChoiceMade at hc
  have hrefresh : BankLaw (refreshBegun k) := ⟨by simp [refreshBegun]; omega, hqueue, rfl, rfl⟩
  by_cases h1 : (k.urgent = true ∧ 0 < k.debt) ∨ 4 ≤ k.debt
  · rw [if_pos h1] at hc
    rw [hc]
    exact hrefresh
  rw [if_neg h1] at hc
  have hu : k.debt = 0 → k.urgent = false := fun hd => by
    by_contra hu
    have := hurgent (by simpa using hu)
    omega
  cases hq : k.queue with
  | cons job rest =>
    rw [hq] at hqueue
    simp only [hq] at hc
    obtain ⟨op, hpage, _, _, rfl⟩ := hc
    refine ⟨hdebt, hqueue, ⟨job, rest, rfl, by simp [hpage]⟩, ?_, hunder⟩
    by_contra hne
    have hne : k.urgent = true := by simpa using hne
    exact h1 (Or.inl ⟨hne, hurgent hne⟩)
  | nil =>
    simp only [hq] at hc
    by_cases h2 : 0 < k.debt
    · rw [if_pos h2] at hc
      rw [hc]
      exact hrefresh
    · have hd : k.debt = 0 := by omega
      rw [if_neg h2] at hc
      subst hc
      cases hop : k.openPage with
      | none => exact ⟨hdebt, Nat.zero_le _, rfl, rfl, hd, hu hd, hunder⟩
      | some op => exact ⟨hdebt, Nat.zero_le _, rfl, rfl, hd, hu hd, hunder⟩

/-- The choice at the end of a claim brings the bank back into its law. -/
theorem banksLaw_choicePoint (s : State) (b : BankId) (hb : BankReady (s.bank b))
    (hother : ∀ b', b' ≠ b → BankLaw (s.bank b')) : (s.choicePoint b).BanksLaw := by
  intro b'
  by_cases h : b' = b
  · rw [h]
    exact bankLaw_of_choiceMade (choiceMade_choicePoint s b) hb
  · rw [(queue_choicePoint s b b').2 h]
    exact hother b' h

theorem bankReady_of_idle {k : Bank} (hk : BankLaw k) (hidle : isIdle k.controller = true) :
    BankReady k ∧ k.queue = [] := by
  obtain ⟨hdebt, hqueue, hctrl⟩ := hk
  cases hc : k.controller <;> simp only [hc, isIdle, Bool.false_eq_true] at hctrl hidle
  · exact ⟨⟨hdebt, hqueue, by simp [hctrl.2.2.2.1], hctrl.2.2.2.2⟩, hctrl.2.1⟩
  · exact ⟨⟨hdebt, hqueue, by simp [hctrl.2.2.2.1], hctrl.2.2.2.2⟩, hctrl.2.1⟩

/-- The bank whose head job has left makes its choice. -/
theorem BanksOk.choicePoint {s : State} {b : BankId} (h : BanksOk (some b) s) :
    (s.choicePoint b).BanksLaw := by
  have hb := h b
  rw [BankOk, if_pos rfl] at hb
  obtain ⟨_, hdebt, hqueue, hurgent, hunder⟩ := hb
  refine banksLaw_choicePoint s b ⟨hdebt, hqueue, by simp [hurgent], hunder⟩ fun b' hne => ?_
  have hb' := h b'
  rwa [BankOk, if_neg (fun e => hne (Option.some.inj e).symm)] at hb'

/-! ## Every operation over the banks keeps their law -/

theorem BanksOk.of_banks {left : Option BankId} {s t : State} (h : BanksOk left s)
    (hb : t.banks = s.banks) : BanksOk left t := by
  intro b
  unfold bank
  rw [hb]
  exact h b

/-- One bank changes. -/
theorem BanksOk.setBank {left : Option BankId} {s : State} (h : BanksOk left s) (b : BankId) (k : Bank)
    (hk : BankOk left b k) : BanksOk left (s.setBank b k) := by
  intro b'
  rw [bank_setBank]
  split
  · rename_i hb
    rw [hb]
    exact hk
  · exact h b'

theorem BanksOk.choicePoint_idle {left : Option BankId} {s : State} {b : BankId} (hleft : left ≠ some b)
    (hb : BankReady (s.bank b)) (hother : ∀ b', b' ≠ b → BankOk left b' (s.bank b')) :
    BanksOk left (s.choicePoint b) := by
  intro b'
  by_cases hne : b' = b
  · rw [hne, BankOk, if_neg hleft]
    exact bankLaw_of_choiceMade (choiceMade_choicePoint s b) hb
  · rw [(queue_choicePoint s b b').2 hne]
    exact hother b' hne

theorem BanksOk.joinQueue {left : Option BankId} {s : State} (h : BanksOk left s) (job : Job)
    (hplace : s.hasPlace job = true) : BanksOk left (s.joinQueue job) := by
  have hlen : (s.bank (bankOf job.index)).queue.length < 12 :=
    of_decide_eq_true hplace
  have hb := h (bankOf job.index)
  unfold State.joinQueue
  dsimp only
  by_cases hidle : isIdle (s.bank (bankOf job.index)).controller = true
  · have hleft : left ≠ some (bankOf job.index) := by
      intro hl
      rw [BankOk, if_pos hl] at hb
      simp [hb.1, isIdle] at hidle
    rw [BankOk, if_neg hleft] at hb
    obtain ⟨⟨hdebt, _, hurgent, hunder⟩, _⟩ := bankReady_of_idle hb hidle
    rw [if_pos hidle]
    refine BanksOk.choicePoint_idle hleft ?_ fun b' hne => ?_
    · rw [bank_setBank, if_pos rfl]
      exact ⟨hdebt, by simp; omega, hurgent, hunder⟩
    · rw [bank_setBank, if_neg hne]
      exact h b'
  · rw [if_neg hidle]
    exact h.setBank _ _ (bankOk_append hb (by simpa using hidle) [job] (by simp; omega) _ _ _)

theorem BanksOk.askSlot {left : Option BankId} {s : State} (h : BanksOk left s) (p : PortId) (t : Tag)
    (job : Job) : BanksOk left (s.askSlot p t job) := by
  have hphase : ∀ f, BanksOk left (s.setSlotPhase p t f) := fun f =>
    h.of_banks (by rw [setSlotPhase_rest])
  unfold State.askSlot
  dsimp only
  split
  · rename_i hplace
    refine (hphase .reading).joinQueue job ?_
    rw [← hplace, setSlotPhase_rest]
    rfl
  · exact (hphase .admitting).setBank _ _ (h (bankOf job.index))

theorem BanksOk.askEngine {left : Option BankId} {s : State} (h : BanksOk left s) (job : Job) :
    BanksOk left (s.askEngine job) := by
  have hphase : ∀ f, BanksOk left (State.setEnginePhase
      { s with engine := s.engine.map fun (e : Progress) => { e with jobs := e.jobs ++ [⟨job, none⟩] } } f) :=
    fun f => h.of_banks rfl
  unfold State.askEngine
  dsimp only
  split
  · rename_i hplace
    exact (hphase .job).joinQueue job hplace
  · exact (hphase .admitting).setBank _ _ (h (bankOf job.index))

/-- A grant at a bank at work, with a free place. -/
theorem BanksOk.grant {left : Option BankId} {s : State} (h : BanksOk left s) (b : BankId)
    (hidle : isIdle (s.bank b).controller = false) (hlen : (s.bank b).queue.length < 12) :
    BanksOk left (s.grant b) := by
  obtain ⟨l, w, v, p, hl, hbank⟩ := bank_grant s b
  intro b'
  rw [hbank]
  split
  · rename_i hb
    subst hb
    exact bankOk_append (h b') hidle l (by omega) w v p
  · exact h b'

theorem BanksOk.writeCell {left : Option BankId} {s : State} (h : BanksOk left s) (i : Index) (c : Cell) :
    BanksOk left (s.writeCell i c) := fun b => bankOk_of_sameWork (sameWork_writeCell s i c b) (h b)

theorem BanksOk.decay {left : Option BankId} {s : State} (h : BanksOk left s) (i : Index)
    (u : Option StoredBody) : BanksOk left (s.decay i u) :=
  fun b => bankOk_of_sameWork (sameWork_decay s i u b) (h b)

/-- The head job of a BUSY bank leaves it, and the place is granted (R146). -/
theorem BanksOk.leaveHead {s : State} (h : BanksOk none s) (b : BankId) (job : Job) (rest : List Job)
    (hbusy : (s.bank b).controller = .busy) (hq : (s.bank b).queue = job :: rest) :
    BanksOk (some b) (s.leaveHead b) := by
  have hlaw := h b
  rw [BankOk, if_neg (by simp)] at hlaw
  obtain ⟨hdebt, hqueue, hctrl⟩ := hlaw
  simp only [hbusy] at hctrl
  rw [hq, List.length_cons] at hqueue
  have hbank : ((s.setBank b { s.bank b with queue := (s.bank b).queue.tail, writeHalf := false }).bank b) =
      { s.bank b with queue := rest, writeHalf := false } := by
    rw [bank_setBank, if_pos rfl, hq, List.tail_cons]
  have hset : BanksOk (some b)
      (s.setBank b { s.bank b with queue := (s.bank b).queue.tail, writeHalf := false }) := by
    intro b'
    by_cases hb : b' = b
    · subst hb
      rw [hbank, BankOk, if_pos rfl]
      exact ⟨hbusy, hdebt, by simp only; omega, hctrl.2⟩
    · have hne : (some b : Option BankId) ≠ some b' := fun e => hb (Option.some.inj e).symm
      rw [bank_setBank, if_neg hb, BankOk, if_neg hne]
      exact (banksOk_none s).mp h b'
  exact hset.grant b (by rw [hbank]; simp [hbusy, isIdle]) (by rw [hbank]; simp only; omega)

end Sys2Proof.Machine.State
end

section
/-! SUPPORT. What the acceptance claim of a management request can come to, and what the completions of a bank's jobs
can: one form for each way a claim goes, with the tests it has passed. -/

namespace Sys2Proof.Machine.State

/-! ## The acceptance claim of a request (R74) -/

/-- What the acceptance claim of a request comes to: an answer with no other change, a claim of the request and its
answer, or a job asked for. Each form carries the tests that the request has passed. -/
inductive Accepted (s : State) : State → Prop
  /-- Every refusal, and the requests that only report (R74, R182, R183, R94). -/
  | answered (st : AnswerStatus) (content : List Byte) : Accepted s (s.answer st content)
  /-- CONFIGURE (R184). -/
  | configured (period : BitVec 16) (enable : Bool) :
    Accepted s (State.answer { s with tickPeriod := period, alertEnable := enable } .done [])
  /-- BIND_PORT (R132). -/
  | bound (p : PortId) (b : Binding) (content : List Byte) (hp : (s.tables.port p).state = .unbound) :
    Accepted s ((s.onTables fun T => T.setPort p ⟨.active, some b⟩).answer .done content)
  /-- UNBIND_PORT (R133). -/
  | unbound (p : PortId) (content : List Byte) (hholds : noHolds s.tables p = true)
      (htags : s.noTags p = true) :
    Accepted s ((s.onTables fun T => T.setPort p ⟨.unbound, none⟩).answer .done content)
  /-- PORT_RESET (R136). -/
  | portReset (p : PortId) (content : List Byte) :
    Accepted s ((s.beginPortReset p).answer .accepted content)
  /-- OPEN_DOMAIN (R124). -/
  | opened (d : DomainId) (quota : Nat) (content : List Byte) (hd : (s.tables.domain d).state = .closed) :
    Accepted s ((s.onTables fun T =>
      T.setDomain d { s.tables.domain d with state := .opened, quota := quota }).answer .done content)
  /-- SET_QUOTA (R125). -/
  | quotaSet (d : DomainId) (quota : Nat) (content : List Byte) :
    Accepted s ((s.onTables fun T =>
      T.setDomain d { s.tables.domain d with quota := quota }).answer .done content)
  /-- CLOSE_DOMAIN (R126). -/
  | closed (d : DomainId) (content : List Byte) (hd : d ≠ commonDomain)
      (hopen : (s.tables.domain d).state = .opened) (hsweep : s.sweep = none) :
    Accepted s ((s.closeClaim d).answer .accepted content)
  /-- ESTABLISH_DATA (R8, R77). -/
  | dataTaken (d : DomainId) (i : Index) (rest : List Index) (body : DataBody)
      (hfree : s.tables.freeList = i :: rest) :
    Accepted s (((s.onTables fun T => T.takeHead i rest d .dataKind none).setTaken
      (i, (s.tables.entry i).generation)).askEngine
        (.bodyWrite i (s.tables.entry i).generation (.dataBody body)))
  /-- ESTABLISH_ALIAS (R8, R79). -/
  | aliasTaken (d : DomainId) (i t : Index) (rest : List Index) (hfree : s.tables.freeList = i :: rest)
      (hkind : (s.tables.entry t).kind = some .dataKind) (husable : usable s.tables t = true)
      (hlist : (s.tables.entry t).aliases.length < Config.maxAliases) :
    Accepted s (((s.onTables fun T => T.takeHead i rest d .aliasKind (some t)).setTaken
      (i, (s.tables.entry i).generation)).askEngine (.bodyRead t (s.tables.entry t).generation .engine))
  /-- An AMEND of the deadline alone (R83). -/
  | deadline (i : Index) (x : DeadlineChange) (husable : usable s.tables i = true) :
    Accepted s ((s.onTables fun T => T.applyDeadline i x).answer .done [])
  /-- An AMEND of body fields, and a QUERY of a body (R82, R84, R94). -/
  | asked (job : Job) (hjob : engineJob job = true) : Accepted s (s.askEngine job)
  /-- SUSPEND and RESUME (R87). -/
  | changed (i : Index) (x : RecState) (hx : x = .live ∨ x = .suspended)
      (husable : usable s.tables i = true) : Accepted s ((s.setRecState i x).answer .done [])
  /-- REVOKE (R88). -/
  | revoked (i : Index) (casc brk : Bool) (st : AnswerStatus) (content : List Byte)
      (hi : Tables.retirable (s.tables.entry i).state = true) :
    Accepted s ((s.onTables fun T => T.retire casc brk i).answer st content)
  /-- FETCH_NOTICE (R114). -/
  | fetched (x : Subject) (rest : List Subject) (content : List Byte) (hx : s.tables.notices = x :: rest) :
    Accepted s ((s.onTables fun T => clearSubject { T with notices := rest } x).answer .done content)
  /-- TABLE_RESET (R185). -/
  | tableReset (e : Progress) (he : s.engine = some e) (hr : e.request = .tableReset) :
    Accepted s s.acceptTableReset

/-- A test of a list of tests in order: none fails where this one passes and none of the rest fails. -/
theorem ite_some_eq_none {α : Type} (c : Prop) [Decidable c] (x : α) (y : Option α) :
    (if c then some x else y) = none ↔ ¬ c ∧ y = none := by
  split_ifs with h <;> simp [h]

section
variable {s : State}

theorem accepted_bindPort (a : BindPortArgs) : Accepted s (s.acceptBindPort a) := by
  unfold acceptBindPort
  split
  · exact .answered _ _
  · split
    · exact .answered _ _
    · split_ifs with hp
      · exact .answered _ _
      · exact .answered _ _
      · exact .bound _ _ _ (by simpa using hp)

theorem accepted_unbindPort (a : PortArgs) : Accepted s (s.acceptUnbindPort a) := by
  unfold acceptUnbindPort
  split
  · exact .answered _ _
  · split_ifs with hp hh
    · exact .answered _ _
    · exact .answered _ _
    · rw [not_or, Bool.not_eq_false, Bool.not_eq_false] at hh
      exact .unbound _ _ hh.1 hh.2

theorem accepted_portReset (a : PortArgs) : Accepted s (s.acceptPortReset a) := by
  unfold acceptPortReset
  split
  · exact .answered _ _
  · split_ifs
    · exact .answered _ _
    · exact .portReset _ _

theorem accepted_openDomain (a : QuotaArgs) : Accepted s (s.acceptOpenDomain a) := by
  unfold acceptOpenDomain
  split
  · exact .answered _ _
  · dsimp only
    split_ifs with hq hd
    · exact .answered _ _
    · exact .answered _ _
    · exact .opened _ _ _ (by simpa using hd)

theorem accepted_setQuota (a : QuotaArgs) : Accepted s (s.acceptSetQuota a) := by
  unfold acceptSetQuota
  split
  · exact .answered _ _
  · dsimp only
    split_ifs
    · exact .answered _ _
    · exact .answered _ _
    · exact .answered _ _
    · exact .quotaSet _ _ _

theorem accepted_closeDomain (a : DomainArgs) : Accepted s (s.acceptCloseDomain a) := by
  unfold acceptCloseDomain
  split
  · exact .answered _ _
  · split_ifs with hc ho hw
    · exact .answered _ _
    · exact .answered _ _
    · exact .answered _ _
    · exact .closed _ _ hc (by simpa using ho) (by simpa using hw)

theorem accepted_establishData (a : EstablishDataArgs) : Accepted s (s.acceptEstablishData a) := by
  unfold acceptEstablishData
  split
  · exact .answered _ _
  · split
    · exact .answered _ _
    · rename_i hnone
      unfold takeAndAsk
      split
      · rename_i hfree
        unfold establishDataRefusal at hnone
        split_ifs at hnone
      · rename_i hfree
        exact .dataTaken _ _ _ _ hfree

theorem accepted_establishAlias (a : EstablishAliasArgs) : Accepted s (s.acceptEstablishAlias a) := by
  unfold acceptEstablishAlias
  split
  · exact .answered _ _
  · split
    · exact .answered _ _
    · rename_i hnone
      simp only [establishAliasRefusal, ite_some_eq_none] at hnone
      obtain ⟨_, _, _, hkind, husable, _, hlist, _, hfree, _⟩ := hnone
      unfold takeAndAsk
      split
      · exact absurd ‹_› hfree
      · rename_i hfree
        exact .aliasTaken _ _ _ _ hfree (by simpa using hkind) (by simpa using husable)
          (Nat.not_le.mp hlist)

theorem accepted_amend (a : AmendArgs) : Accepted s (s.acceptAmend a) := by
  unfold acceptAmend
  split
  · split
    · exact .answered _ _
    · rename_i i force c _ _ _ hnone
      unfold amendOn
      split_ifs
      · refine .deadline _ _ ?_
        unfold amendRefusal at hnone
        split at hnone
        · simp at hnone
        · split_ifs at hnone with h
          simpa using h
      · split
        · exact .asked _ rfl
        · exact .asked _ rfl
  · exact .answered _ _

theorem accepted_change (a : HandleArgs) (found next : RecState)
    (hfound : found = .live ∨ found = .suspended) (hnext : next = .live ∨ next = .suspended) :
    Accepted s (s.acceptChange a found next) := by
  unfold acceptChange
  split
  · exact .answered _ _
  · split
    · exact .answered _ _
    · split_ifs with h
      · exact .changed _ _ hnext (by simpa [usable, h] using hfound)
      · exact .answered _ _

theorem accepted_revoke (a : RevokeArgs) : Accepted s (s.acceptRevoke a) := by
  unfold acceptRevoke
  split
  · split
    · exact .answered _ _
    · rename_i hnone
      refine .revoked _ _ _ _ _ ?_
      unfold revokeRefusal at hnone
      split at hnone
      · simp at hnone
      · split_ifs at hnone with h
        simpa using h
  · exact .answered _ _

/-- Every acceptance claim is of one of the forms. -/
theorem accepted_accept (r : Request) (e : Progress) (he : s.engine = some e) (hr : e.request = r) :
    Accepted s (s.accept r) := by
  cases r with
  | info => exact .answered _ _
  | status => exact .answered _ _
  | configure a =>
    simp only [accept, acceptConfigure]
    split
    · exact .answered _ _
    · split_ifs
      · exact .answered _ _
      · exact .configured _ _
  | bindPort a => exact accepted_bindPort a
  | unbindPort a => exact accepted_unbindPort a
  | portReset a => exact accepted_portReset a
  | openDomain a => exact accepted_openDomain a
  | setQuota a => exact accepted_setQuota a
  | closeDomain a => exact accepted_closeDomain a
  | establishData a => exact accepted_establishData a
  | establishAlias a => exact accepted_establishAlias a
  | amend a => exact accepted_amend a
  | suspend a => exact accepted_change a _ _ (Or.inl rfl) (Or.inr rfl)
  | resume a => exact accepted_change a _ _ (Or.inr rfl) (Or.inl rfl)
  | revoke a => exact accepted_revoke a
  | query a =>
    simp only [accept, acceptQuery]
    split
    · exact .answered _ _
    · split_ifs
      · exact .asked _ rfl
      · exact .answered _ _
  | fetchNotice =>
    simp only [accept, acceptFetchNotice]
    split
    · exact .answered _ _
    · rename_i hx
      exact .fetched _ _ _ hx
  | tableReset => exact .tableReset e he hr

/-- The hand-over of a request comes to an acceptance claim from the WORKING interface and a new progress record. -/
theorem accepted_handOver (r : Request) :
    Accepted { s with iface := .working, engine := some ⟨r, .checking, none, [], none⟩ } (s.handOver r) :=
  accepted_accept r _ rfl rfl

end

/-! ## The answer (R179) -/

theorem answer_rest (s : State) (st : AnswerStatus) (content : List Byte) :
    s.answer st content = { s with
      iface := (s.answer st content).iface
      answerBuffer := (s.answer st content).answerBuffer
      engine := (s.answer st content).engine } := by
  unfold answer
  split <;> rfl

/-- A management frame keeps a law that does not read the port's buffers and registers, where every acceptance
claim at a listening interface keeps it. -/
theorem managementFrame_keeps {Q R : State → Prop} (hregisters : ∀ (s : State) iface a out flag b e, Q s →
      Q { s with iface := iface, answerBuffer := a, msdo := out, refused := flag, requestBuffer := b,
                 engine := e })
    (hQR : ∀ s, Q s → R s)
    (hclaim : ∀ s t : State, Q s → s.partState ≠ .starting → s.iface = .working → Accepted s t → R t)
    (s : State) (l : List Byte) (hs : Q s) : R (s.managementFrame l) := by
  rcases managementFrame_cases s l with ⟨out, flag, h⟩ | ⟨out, _, _, h⟩ | ⟨_, out, a, h⟩ | ⟨hl, out, b, r, h⟩
  · rw [h]
    exact hQR _ (hregisters s s.iface s.answerBuffer out flag s.requestBuffer s.engine hs)
  · rw [h]
    exact hQR _ (hregisters s .idle none out false s.requestBuffer s.engine hs)
  · rw [h]
    exact hQR _ (hregisters s .answerReady (some a) out false s.requestBuffer s.engine hs)
  · rw [h]
    have ha := accepted_handOver (s := { s with msdo := out, refused := false, requestBuffer := some b }) r
    have hq := hregisters s .working s.answerBuffer out false (some b)
      (some ⟨r, .checking, none, [], none⟩) hs
    exact hclaim _ _ hq hl.2.1 rfl ha

/-! ## The completion of a body read (R30 to R32, R80, R84, R95) -/

/-- The slot of a check with more of its reads completed: nothing but the results differs. -/
structure SameCheck (x y : CheckSlot) : Prop where
  request : y.request = x.request
  clearance : y.clearance = x.clearance
  token : y.token = x.token
  kind : y.kind = x.kind
  target : y.target = x.target
  index : y.named.index = x.named.index
  generation : y.named.generation = x.named.generation

/-- A slot that takes a read decides, or asks for the read of its target. -/
theorem slotTakes_cases (s : State) (p : PortId) (t : Tag) (r : ReadResult) :
    s.slotTakes p t r = s ∨ ∃ x, s.slot p t = some x ∧
      ((∃ y, SameCheck x y ∧ s.slotTakes p t r = s.decideSlot p t y) ∨
        ∃ y i g, SameCheck x y ∧ s.slotTakes p t r =
          (s.setSlot p t (some y)).askSlot p t (.bodyRead i g (.slot p t))) := by
  unfold slotTakes
  split
  · exact Or.inl rfl
  · rename_i x hx
    refine Or.inr ⟨x, hx, ?_⟩
    split
    · refine Or.inl ⟨_, ?_, rfl⟩; exact ⟨rfl, rfl, rfl, rfl, rfl, rfl, rfl⟩
    · dsimp only
      split
      · refine Or.inl ⟨_, ?_, rfl⟩; exact ⟨rfl, rfl, rfl, rfl, rfl, rfl, rfl⟩
      · split
        · refine Or.inl ⟨_, ?_, rfl⟩; exact ⟨rfl, rfl, rfl, rfl, rfl, rfl, rfl⟩
        · refine Or.inr ⟨_, _, _, ?_, rfl⟩; exact ⟨rfl, rfl, rfl, rfl, rfl, rfl, rfl⟩

/-- What the completion of an engine's job is made of: changes that lead from `P` to `P`, and at last an answer or the
next job asked for, which lead from `P` to `R`. A damage claim can follow the answer. -/
structure EngineSteps (P R : State → Prop) : Prop where
  done : ∀ {s : State}, P s → R s
  result : ∀ {s : State} (r : JobResult), P s → P (s.setJobResult r)
  extent : ∀ {s : State} (x : BitVec 40), P s → P (s.setTargetExtent x)
  answer : ∀ {s : State} (st : AnswerStatus) (content : List Byte), P s → R (s.answer st content)
  damage : ∀ {s : State} (i : Index) (g : Generation), P s → P (s.onTables fun T => T.damageClaim i g)
  damaged : ∀ {s : State} (i : Index) (g : Generation), R s → R (s.onTables fun T => T.damageClaim i g)
  free : ∀ {s : State} (i : Index), P s → (s.tables.entry i).state = .pending →
    P (s.onTables fun T => Tables.becomeFree none T i)
  ask : ∀ {s : State} (job : Job), P s → engineJob job = true → R (s.askEngine job)
  live : ∀ {s : State} (i : Index), P s → (s.tables.entry i).state = .pending → P (s.setRecState i .live)
  deadline : ∀ {s : State} (i : Index) (d : Epoch), P s → (s.tables.entry i).state = .live →
    P (s.onTables fun T => T.enterQueue i d)

/-- The law is kept by each change that the completion of an engine's job is made of. -/
structure EngineClosed (P : State → Prop) : Prop where
  result : ∀ {s : State} (r : JobResult), P s → P (s.setJobResult r)
  extent : ∀ {s : State} (x : BitVec 40), P s → P (s.setTargetExtent x)
  answer : ∀ {s : State} (st : AnswerStatus) (content : List Byte), P s → P (s.answer st content)
  damage : ∀ {s : State} (i : Index) (g : Generation), P s → P (s.onTables fun T => T.damageClaim i g)
  free : ∀ {s : State} (i : Index), P s → (s.tables.entry i).state = .pending →
    P (s.onTables fun T => Tables.becomeFree none T i)
  ask : ∀ {s : State} (job : Job), P s → engineJob job = true → P (s.askEngine job)
  live : ∀ {s : State} (i : Index), P s → (s.tables.entry i).state = .pending → P (s.setRecState i .live)
  deadline : ∀ {s : State} (i : Index) (d : Epoch), P s → (s.tables.entry i).state = .live →
    P (s.onTables fun T => T.enterQueue i d)

theorem EngineClosed.steps {P : State → Prop} (c : EngineClosed P) : EngineSteps P P where
  done h := h
  result := c.result
  extent := c.extent
  answer := c.answer
  damage := c.damage
  damaged := c.damage
  free := c.free
  ask := c.ask
  live := c.live
  deadline := c.deadline

namespace EngineSteps

variable {P R : State → Prop} (c : EngineSteps P R) {s : State}

include c

theorem readClaim (t : Index) (g : Generation) (r : ReadResult) (h : P s) : P (s.readClaim t g r) := by
  unfold State.readClaim
  split_ifs
  · exact h
  · exact c.damage t g h

/-- The damage claim of a read after the answer. -/
theorem claimed (t : Index) (g : Generation) (r : ReadResult) (h : R s) : R (s.readClaim t g r) := by
  unfold State.readClaim
  split_ifs
  · exact h
  · exact c.damaged t g h

theorem freeTaken (i : Index) (g : Generation) (h : P s) : P (s.freeTaken i g) := by
  unfold State.freeTaken
  split_ifs with hi
  · exact c.free i h hi.1
  · exact h

theorem establishTargetRead (i : Index) (g : Generation) (body : AliasBody) (t : Index) (tg : Generation)
    (r : ReadResult) (h : P s) : R (s.establishTargetRead i g body t tg r) := by
  unfold State.establishTargetRead
  split_ifs
  · exact c.claimed t tg r (c.answer _ _ (c.freeTaken i g h))
  · exact c.answer _ _ (c.freeTaken i g (c.readClaim t tg r h))
  · exact c.answer _ _ (c.freeTaken i g h)
  · exact c.ask _ h rfl

theorem amendTargetRead (i : Index) (g : Generation) (x : AmendChanges) (force : Bool) (t : Index)
    (tg : Generation) (r : ReadResult) (h : P s) : R (s.amendTargetRead i g x force t tg r) := by
  unfold State.amendTargetRead
  split_ifs
  · exact c.claimed t tg r (c.answer _ _ h)
  · exact c.claimed t tg r (c.answer _ _ h)
  · exact c.answer _ _ (c.readClaim t tg r h)
  · exact c.ask _ (c.extent _ h) rfl

theorem queryRead (i : Index) (g : Generation) (r : ReadResult) (h : P s) : R (s.queryRead i g r) := by
  unfold State.queryRead
  split_ifs
  · exact c.answer _ _ h
  · exact c.answer _ _ (c.readClaim i g r h)
  · exact c.answer _ _ h
  · exact c.answer _ _ (c.readClaim i g r h)

/-- The engine takes the result of a read. -/
theorem engineTakesRead (t : Index) (tg : Generation) (r : ReadResult) (h : P s) :
    R (s.engineTakesRead t tg r) := by
  have h1 := c.result (.read r) h
  unfold State.engineTakesRead
  dsimp only
  split
  · exact c.done h1
  · split
    · split
      · exact c.establishTargetRead _ _ _ t tg r h1
      · exact c.done h1
    · split
      · exact c.amendTargetRead _ _ _ _ t tg r h1
      · exact c.done h1
    · exact c.queryRead t tg r h1
    · exact c.done h1

theorem becomeLive (i : Index) (g : Generation) (dl : Option Epoch) (h : P s)
    (hi : (s.tables.entry i).state = .pending) : R (s.becomeLive i g dl) := by
  unfold State.becomeLive
  dsimp only
  have h1 := c.live i h hi
  refine c.answer _ _ ?_
  split
  · refine c.deadline i _ h1 ?_
    have h0 : i ≠ 0 := by
      rintro rfl
      rw [Tables.entry_zero] at hi
      cases hi
    simp [setRecState, onTables, Tables.entry_modEntry, h0]
  · exact h1

/-- The engine takes the completion of a write. -/
theorem engineTakesWrite (i : Index) (g : Generation) (h : P s) : R (s.engineTakesWrite i g) := by
  have h1 := c.result .wrote h
  unfold State.engineTakesWrite
  dsimp only
  split_ifs with hi
  · exact c.done h1
  · rw [not_or, not_not, not_not] at hi
    split
    · exact c.done h1
    · split
      · split
        · exact c.becomeLive i g _ h1 hi.1
        · exact c.done h1
      · split
        · split_ifs
          · exact c.becomeLive i g _ h1 hi.1
          · exact c.answer _ _ (c.freeTaken i g h1)
        · exact c.done h1
      · exact c.done h1

/-- A refused AMEND job is answered, and makes the damage claim of its read. -/
theorem amendRefused (i : Index) (g : Generation) (st : AnswerStatus) (r : ReadResult) (h : P s) :
    R (s.amendRefused i g st r) := c.claimed i g r (c.answer _ _ (c.result _ h))

end EngineSteps

end Sys2Proof.Machine.State
end

section
/-! SUPPORT. Every step keeps the law of the banks. -/

namespace Sys2Proof.Machine.State

/-! ## Claims that touch no bank -/

theorem completeIfLast_rest (s : State) (p : PortId) :
    s.completeIfLast p = { s with tables := (s.completeIfLast p).tables } := by
  unfold completeIfLast
  split <;> rfl

theorem decideSlot_rest (s : State) (p : PortId) (t : Tag) (x : CheckSlot) :
    s.decideSlot p t x = { s with
      tables := (s.decideSlot p t x).tables
      slots := (s.decideSlot p t x).slots } := by
  unfold decideSlot
  dsimp only
  rw [completeIfLast_rest]
  rfl

theorem expireHead_rest (s : State) : s.expireHead = { s with tables := s.expireHead.tables } := by
  unfold expireHead
  split
  · split <;> rfl
  · rfl

theorem expireDue_rest (s : State) : s.expireDue = { s with tables := s.expireDue.tables } := by
  unfold expireDue
  split
  · exact expireHead_rest s
  · rfl

theorem expiryPassSteps_rest (n : Nat) (s : State) :
    expiryPassSteps n s = { s with tables := (expiryPassSteps n s).tables } := by
  induction n generalizing s with
  | zero => rfl
  | succ n ih =>
    rw [expiryPassSteps, ih, expireDue_rest]

theorem epochTick_banks (s : State) : s.epochTick.banks = s.banks := by
  unfold epochTick
  split
  · dsimp only
    rw [expiryPassSteps_rest]
    rfl
  · rfl

theorem sendHead_rest (s : State) (p : PortId) :
    s.sendHead p = { s with
      tables := (s.sendHead p).tables
      transmitters := (s.sendHead p).transmitters } := by
  unfold sendHead
  split <;> rfl

theorem startTransmission_rest (s : State) (p : PortId) :
    s.startTransmission p = { s with
      tables := (s.startTransmission p).tables
      transmitters := (s.startTransmission p).transmitters } := by
  unfold startTransmission
  split
  · exact sendHead_rest s p
  · rfl

theorem endTransmission_rest (s : State) (p : PortId) :
    s.endTransmission p = { s with
      tables := (s.endTransmission p).tables
      transmitters := (s.endTransmission p).transmitters } := by
  unfold endTransmission
  split
  · rfl
  · rw [sendHead_rest]
    rfl

theorem sweepVisit_rest (s : State) :
    s.sweepVisit = { s with tables := s.sweepVisit.tables, sweep := s.sweepVisit.sweep } := by
  unfold sweepVisit
  split
  · rfl
  · dsimp only
    split <;> rfl

/-! ## The law of the banks in each claim -/

theorem BanksOk.accepted {s t : State} (h : BanksOk none s) (ha : Accepted s t) : BanksOk none t := by
  have hanswer : ∀ (u : State) (st : AnswerStatus) (content : List Byte), u.banks = s.banks →
      BanksOk none (u.answer st content) := fun u st content hu =>
    h.of_banks (by rw [answer_rest]; exact hu)
  cases ha with
  | answered => exact hanswer _ _ _ rfl
  | configured => exact hanswer _ _ _ rfl
  | bound => exact hanswer _ _ _ rfl
  | unbound => exact hanswer _ _ _ rfl
  | portReset p => exact hanswer _ _ _ (by rw [beginPortReset, completeIfLast_rest]; rfl)
  | opened => exact hanswer _ _ _ rfl
  | quotaSet => exact hanswer _ _ _ rfl
  | closed => exact hanswer _ _ _ rfl
  | dataTaken d i rest =>
    exact (h.of_banks (t := (s.onTables fun T => T.takeHead i rest d .dataKind none).setTaken _) rfl).askEngine _
  | aliasTaken d i t rest =>
    exact (h.of_banks (t := (s.onTables fun T => T.takeHead i rest d .aliasKind (some t)).setTaken _)
      rfl).askEngine _
  | deadline => exact hanswer _ _ _ rfl
  | asked job => exact h.askEngine job
  | changed => exact hanswer _ _ _ rfl
  | revoked => exact hanswer _ _ _ rfl
  | fetched => exact hanswer _ _ _ rfl
  | tableReset => exact h.of_banks rfl

theorem BanksOk.screen {s : State} (h : BanksOk none s) (p : PortId) (t : Tag) (r : CheckRequest) :
    BanksOk none (s.screen p t r) := by
  unfold State.screen
  split
  · exact h.of_banks rfl
  · have hslot : BanksOk none ((s.onTables fun T => reserve T p (s.newSlot p r).token).setSlot p t
        (some (s.newSlot p r))) := h.of_banks rfl
    exact hslot.askSlot p t _

theorem BanksOk.takeFrame {s : State} (h : BanksOk none s) (p : PortId) (l : List Byte) :
    BanksOk none (s.takeFrame p l) := by
  rcases takeFrame_cases s p l with e | ⟨c, e⟩ | ⟨_, ⟨r, e⟩ | e⟩ <;> rw [e]
  · exact h
  · exact h.of_banks rfl
  · exact h.screen _ _ _
  · exact h.of_banks rfl

theorem banksOk_engineClosed (left : Option BankId) : EngineClosed (BanksOk left) where
  result _ h := h.of_banks rfl
  extent _ h := h.of_banks rfl
  answer _ _ h := h.of_banks (by rw [answer_rest])
  damage _ _ h := h.of_banks rfl
  free _ h _ := h.of_banks rfl
  ask job h _ := h.askEngine job
  live _ h _ := h.of_banks rfl
  deadline _ _ h _ := h.of_banks rfl

theorem BanksOk.slotTakes {left : Option BankId} {s : State} (h : BanksOk left s) (p : PortId) (t : Tag)
    (r : ReadResult) : BanksOk left (s.slotTakes p t r) := by
  rcases slotTakes_cases s p t r with e | ⟨x, _, ⟨y, _, e⟩ | ⟨y, i, g, _, e⟩⟩ <;> rw [e]
  · exact h
  · exact h.of_banks (by rw [decideSlot_rest])
  · exact (h.of_banks (t := s.setSlot p t (some y)) rfl).askSlot _ _ _

theorem BanksOk.issuerTakes {left : Option BankId} {s : State} (h : BanksOk left s) (i : Index)
    (g : Generation) (issuer : Issuer) (r : ReadResult) : BanksOk left (s.issuerTakes i g issuer r) := by
  cases issuer with
  | slot p t => exact h.slotTakes p t r
  | engine => exact (banksOk_engineClosed left).steps.engineTakesRead i g r h

theorem banksLaw_completeRead {s : State} (h : s.BanksLaw) (b : BankId) (u : Option StoredBody) :
    (s.completeRead b u).BanksLaw := by
  unfold completeRead
  dsimp only
  split
  · rename_i i g issuer rest hbusy hq
    have hdecay := ((banksOk_none s).mpr h).decay i u
    obtain ⟨o, _, hb⟩ := sameWork_decay s i u b
    exact ((hdecay.leaveHead b (.bodyRead i g issuer) rest (by rw [hb]; exact hbusy)
      (by rw [hb]; exact hq)).issuerTakes i g issuer _).choicePoint
  · exact h

theorem banksLaw_completeWrite {s : State} (h : s.BanksLaw) (b : BankId) :
    (s.completeWrite b).BanksLaw := by
  unfold completeWrite
  dsimp only
  split
  · rename_i i g body rest hbusy hq
    have hwrite := ((banksOk_none s).mpr h).writeCell i (.stored body.sealed)
    obtain ⟨o, _, hb⟩ := sameWork_writeCell s i (.stored body.sealed) b
    exact ((banksOk_engineClosed _).steps.engineTakesWrite i g (hwrite.leaveHead b (.bodyWrite i g body) rest
      (by rw [hb]; exact hbusy) (by rw [hb]; exact hq))).choicePoint
  · exact h

theorem banksLaw_endReadHalf {s : State} (h : s.BanksLaw) (b : BankId) (u : Option StoredBody) :
    (s.endReadHalf b u).BanksLaw := by
  unfold endReadHalf
  dsimp only
  split
  · rename_i i g c force rest hbusy hhalf hq
    have hdecay := ((banksOk_none s).mpr h).decay i u
    obtain ⟨o, _, hb⟩ := sameWork_decay s i u b
    split
    · rename_i st _
      exact ((banksOk_engineClosed _).steps.amendRefused i g st _ (hdecay.leaveHead b (.amendJob i g c force) rest
        (by rw [hb]; exact hbusy) (by rw [hb]; exact hq))).choicePoint
    · have hwritten : BanksOk none ((s.decay i u).amendWritten i c ((s.decay i u).readBody i)) :=
        BanksOk.of_banks (BanksOk.writeCell (s := State.onTables _ _) (hdecay.of_banks rfl) _ _) rfl
      exact (banksOk_none _).mp (hwritten.setBank b _ (hwritten b))
  · exact h

theorem banksLaw_completeAmend {s : State} (h : s.BanksLaw) (b : BankId) :
    (s.completeAmend b).BanksLaw := by
  unfold completeAmend
  dsimp only
  split
  · rename_i rest hbusy hhalf hq
    exact ((banksOk_engineClosed _).answer .done []
      (((banksOk_none s).mpr h).leaveHead b _ rest hbusy hq)).choicePoint
  · exact h

theorem banksLaw_admitWaiting {s : State} (h : s.BanksLaw) (b : BankId) :
    (s.admitWaiting b).BanksLaw := by
  unfold admitWaiting
  dsimp only
  split_ifs with hplace hidle
  · have hready := (bankReady_of_idle (h b) hidle).1
    obtain ⟨l, w, v, p, hl, hbank⟩ := bank_grant s b
    refine banksLaw_choicePoint _ b ?_ fun b' hne => ?_
    · rw [hbank, if_pos rfl]
      have hlen : (s.bank b).queue.length < 12 := hplace.1
      exact ⟨hready.1, by simp; omega, hready.2.2⟩
    · rw [hbank, if_neg hne]
      exact h b'
  · exact (banksOk_none _).mp (((banksOk_none s).mpr h).grant b (by simpa using hidle) hplace.1)
  · exact h

/-- A bank at an idle controller makes a choice. -/
theorem banksLaw_choicePoint_idle {s : State} (h : s.BanksLaw) (b : BankId)
    (hidle : isIdle (s.bank b).controller = true) : (s.choicePoint b).BanksLaw :=
  banksLaw_choicePoint s b (bankReady_of_idle (h b) hidle).1 fun b' _ => h b'

theorem writeStorages_rest (l : List Index) (s : State) :
    l.foldl (fun s i => s.writeStorage i (.undefined s.freeCount)) s =
      { s with storage := (l.foldl (fun s i => s.writeStorage i (.undefined s.freeCount)) s).storage } := by
  induction l generalizing s with
  | nil => rfl
  | cons i l ih =>
    rw [List.foldl_cons, ih]
    rfl

theorem losePage_rest (s : State) (b : BankId) (p : PageNo) :
    s.losePage b p = { s with
      storage := (s.losePage b p).storage
      freeCount := s.freeCount + 1
      tables := (s.losePage b p).tables } := by
  unfold losePage
  dsimp only
  rw [writeStorages_rest]

theorem banksLaw_missedRefresh {s : State} (h : s.BanksLaw) (b : BankId) :
    (s.missedRefresh b).BanksLaw := by
  have hset := (banksOk_none _).mp (((banksOk_none s).mpr h).setBank b
    { s.bank b with pointer := (s.bank b).pointer + 1 } ((banksOk_none s).mpr h b))
  unfold missedRefresh
  dsimp only
  split_ifs
  · exact hset
  · exact (banksOk_none _).mp (((banksOk_none _).mpr hset).of_banks (by rw [losePage_rest]))

theorem banksLaw_refreshTick {s : State} (h : s.BanksLaw) (b : BankId) :
    (s.refreshTick b).BanksLaw := by
  unfold refreshTick
  split_ifs
  · exact h
  · unfold takeRefreshTick
    dsimp only
    split_ifs with hdebt hidle
    · have hready := (bankReady_of_idle (h b) hidle).1
      refine banksLaw_choicePoint _ b ?_ fun b' hne => ?_
      · rw [bank_setBank, if_pos rfl]
        exact ⟨hdebt, hready.2.1, fun _ => Nat.succ_pos _, hready.2.2.2⟩
      · rw [bank_setBank, if_neg hne]
        exact h b'
    · refine (banksOk_none _).mp (((banksOk_none s).mpr h).setBank b _ ?_)
      obtain ⟨_, hqueue, hctrl⟩ := h b
      refine ⟨hdebt, hqueue, ?_⟩
      cases hc : (s.bank b).controller <;> simp only [hc, isIdle] at hctrl hidle ⊢
      · exact absurd trivial hidle
      · exact absurd trivial hidle
      · exact hctrl
      · exact hctrl
    · exact banksLaw_missedRefresh h b

theorem banksLaw_finishRefresh {s : State} (h : s.BanksLaw) (b : BankId) :
    (s.finishRefresh b).BanksLaw := by
  unfold finishRefresh
  split
  · unfold endRefresh
    dsimp only
    obtain ⟨hdebt, hqueue, _⟩ := h b
    refine banksLaw_choicePoint _ b ?_ fun b' hne => ?_
    · rw [bank_setBank, if_pos rfl]
      refine ⟨hdebt, hqueue, fun hu => ?_, rfl⟩
      simp only [Bool.and_eq_true, decide_eq_true_eq] at hu
      exact Nat.pos_of_ne_zero hu.2
    · rw [bank_setBank, if_neg hne]
      exact h b'
  all_goals exact h

theorem banksLaw_claims (s : State) (h : s.BanksLaw) : Claims BanksLaw s where
  assertReset b := by
    rw [show s.assertReset.bank b = Bank.reset from pick_replicate _ _]
    exact ⟨Nat.zero_le _, Nat.zero_le _, rfl, rfl, rfl, rfl, rfl⟩
  releaseReset := by
    unfold releaseReset
    split <;> exact h
  endStartUp := by
    unfold endStartUp
    split <;> exact h
  receive p l := (banksOk_none _).mp (receive_keeps p (P := BanksOk none) (fun _ _ h => h.of_banks rfl)
    (fun _ l h => h.takeFrame p l) s l ((banksOk_none s).mpr h))
  startTransmission p := by
    rw [startTransmission_rest]
    exact h
  endTransmission p := by
    rw [endTransmission_rest]
    exact h
  managementFrame l := managementFrame_keeps (Q := BanksLaw) (fun _ _ _ _ _ _ _ h => h) (fun _ h => h)
    (fun _ _ h _ _ ha => (banksOk_none _).mp (((banksOk_none _).mpr h).accepted ha)) s l h
  startService b := by
    unfold startService
    dsimp only
    split_ifs with hc
    · exact banksLaw_choicePoint_idle h b hc.1
    · exact h
  completeRead := banksLaw_completeRead h
  completeWrite := banksLaw_completeWrite h
  endReadHalf := banksLaw_endReadHalf h
  completeAmend := banksLaw_completeAmend h
  admitWaiting := banksLaw_admitWaiting h
  refreshTick := banksLaw_refreshTick h
  startRefresh b := by
    unfold startRefresh
    dsimp only
    split_ifs with hc
    · exact banksLaw_choicePoint_idle h b hc.1
    · exact h
  finishRefresh := banksLaw_finishRefresh h
  retentionLoss b := by
    unfold retentionLoss
    dsimp only
    split_ifs
    · exact banksLaw_missedRefresh h b
    · exact h
  epochTick := fun b => by
    unfold bank
    rw [epochTick_banks]
    exact h b
  expireDue := by
    rw [expireDue_rest]
    exact h
  holdTimerExpiry _ _ := h
  sweepVisit := by
    rw [sweepVisit_rest]
    exact h
  clearingWalkVisit := by
    unfold clearingWalkVisit
    split
    · exact h
    · dsimp only
      split_ifs
      · rw [answer_rest]
        exact h
      · exact h
  completeIfLast p := by
    rw [completeIfLast_rest]
    exact h
  testDraining _ := h

/-- Settles O53: each claim keeps the law of every bank; a completion claim breaks it at its own bank, and its
choice restores it. -/
theorem banksLawKept : Obligations.BanksLawKept :=
  fun _ _ h hstep => step_keeps (fun _ _ h => h) (fun _ h => h) banksLaw_claims h hstep

end Sys2Proof.Machine.State
end

section
/-! SUPPORT. Every step keeps the canonical form of the sparse tables, and the agreement of clean page buffers with
storage (R141, R142, R146). -/

namespace Sys2Proof.Machine

/-! ## The Record Status Table -/

/-- The status table is in canonical form, its keys the indices 1 to 4095. -/
def RstCanonical (T : Tables) : Prop :=
  Table.wf .blank T.rst = true ∧ ∀ x ∈ T.rst, 1 ≤ x.1 ∧ x.1 ≤ 4095

namespace Table

theorem mem_beyond {α : Type} {n : Nat} {t : List (Nat × α)} {x : Nat × α} (h : x ∈ beyond n t) : x ∈ t := by
  induction t with
  | nil => exact h
  | cons e r ih =>
    unfold beyond at h
    split_ifs at h
    · exact h
    · exact List.mem_cons_of_mem _ (ih h)

/-- A write adds no key but its own. -/
theorem mem_put {α : Type} [DecidableEq α] {d : α} {t : List (Nat × α)} {n : Nat} {v : α} {x : Nat × α}
    (h : x ∈ put d t n v) : x.1 = n ∨ x ∈ t := by
  induction t with
  | nil =>
    unfold put at h
    split_ifs at h
    · exact absurd h List.not_mem_nil
    · simp only [List.mem_singleton] at h
      exact Or.inl (by rw [h])
  | cons e r ih =>
    unfold put at h
    split_ifs at h
    · exact Or.inr h
    · rcases List.mem_cons.mp h with h | h
      · exact Or.inl (by rw [h])
      · exact Or.inr h
    · exact Or.inr (List.mem_cons_of_mem _ (mem_beyond h))
    · rcases List.mem_cons.mp h with h | h
      · exact Or.inl (by rw [h])
      · exact Or.inr (List.mem_cons_of_mem _ h)
    · rcases List.mem_cons.mp h with h | h
      · exact Or.inr (by rw [h]; exact List.mem_cons_self)
      · exact (ih h).imp_right (List.mem_cons_of_mem _)

end Table

theorem RstCanonical.setEntry {T : Tables} (h : RstCanonical T) (i : Index) (e : StatusEntry) :
    RstCanonical (T.setEntry i e) := by
  refine ⟨Tables.wf_setEntry T i e h.1, fun x hx => ?_⟩
  unfold Tables.setEntry at hx
  split at hx
  · exact h.2 x hx
  · rcases Table.mem_put hx with hx | hx
    · have := i.isLt
      omega
    · exact h.2 x hx

theorem RstCanonical.of_rst {T T' : Tables} (h : RstCanonical T) (hr : T'.rst = T.rst) : RstCanonical T' := by
  unfold RstCanonical
  rw [hr]
  exact h

theorem rstCanonical_closed : Tables.HoldClosed RstCanonical where
  setEntry i e h _ := h.setEntry i e
  raiseRecord i r h := by
    simp only [Tables.raiseRecord]
    split_ifs
    · exact h
    · exact (h.setEntry i _).of_rst rfl
    · exact h.setEntry i _
  count _ _ h := h.of_rst rfl
  freeList _ h := h.of_rst rfl
  expiryQueue _ h := h.of_rst rfl
  setHold _ _ _ h := h.of_rst rfl
  fillOrder _ h := h.of_rst rfl
  outbound _ h := h.of_rst rfl

end Sys2Proof.Machine
end

section
/-! SUPPORT. A property of the tables that the writes of claims keep is kept by every claim of the part. -/

namespace Sys2Proof.Machine

namespace Tables

theorem isEmpty_iff (r : RecordReasons) : r.isEmpty = true ↔ r = .empty := by
  obtain ⟨a, b, c, d⟩ := r
  cases a <;> cases b <;> cases c <;> cases d <;> decide

@[simp] theorem isEmpty_add (r : RecordReasons) (x : RecReason) : (r.add x).isEmpty = false := by
  cases x <;> simp [RecordReasons.add, RecordReasons.isEmpty]

/-! ## The clearing walk and the reasons of a record (R186) -/

theorem uncount_entry (T : Tables) (d : Option DomainId) (i : Index) :
    (State.uncount T d).entry i = T.entry i := by
  unfold State.uncount
  cases d with
  | none => rfl
  | some d =>
    dsimp only
    split_ifs <;> rfl

theorem dropNotice_entry (T : Tables) (i j : Index) : (State.dropNotice T i).entry j = T.entry j := rfl

theorem leaveQueue_entry (T : Tables) (i j : Index) :
    (T.leaveQueue i).entry j =
      if j = i then { T.entry j with deadline := none } else T.entry j := by
  unfold leaveQueue
  rw [entry_modEntry]
  by_cases h0 : i = 0
  · by_cases hj : j = i
    · subst hj
      subst h0
      rfl
    · simp only [hj, false_and, if_false]
      rfl
  · simp only [ne_eq, h0, not_false_eq_true, and_true]
    rfl

theorem leaveTarget_entry (T : Tables) (i t j : Index) :
    (T.leaveTarget i t).entry j =
      if j = t then { T.entry j with aliases := (T.entry j).aliases.erase i } else T.entry j := by
  unfold leaveTarget
  rw [entry_modEntry]
  by_cases h0 : t = 0
  · by_cases hj : j = t
    · subst hj
      subst h0
      rfl
    · simp only [hj, false_and, if_false]
  · simp only [ne_eq, h0, not_false_eq_true, and_true]

/-- The tables as an ALIAS record is freed in its target's visit, before it leaves the target's list. -/
def wipeAlias (T : Tables) (a : Index) : Tables :=
  { State.dropNotice (((State.uncount T (T.entry a).domain).leaveQueue a).setEntry a
      (.freeAt (T.entry a).generation)) a with
    freeList := (((State.uncount T (T.entry a).domain).leaveQueue a).setEntry a
      (.freeAt (T.entry a).generation)).freeList ++ [a] }

theorem clearAlias_eq (T : Tables) (a : Index) :
    State.clearAlias T a = match (T.entry a).target with
      | some t => (wipeAlias T a).leaveTarget a t
      | none => wipeAlias T a := rfl

theorem wipeAlias_entry (T : Tables) (a j : Index) :
    (wipeAlias T a).entry j = if j = a then .freeAt (T.entry a).generation else T.entry j := by
  change (((State.uncount T (T.entry a).domain).leaveQueue a).setEntry a
    (.freeAt (T.entry a).generation)).entry j = _
  rw [entry_setEntry]
  by_cases h0 : a = 0
  · subst h0
    by_cases hj : j = 0
    · subst hj
      rfl
    · rw [if_neg (by simp), leaveQueue_entry, if_neg hj, uncount_entry, if_neg hj]
  · by_cases hj : j = a
    · rw [if_pos ⟨hj, h0⟩, if_pos hj]
    · rw [if_neg (fun h => hj h.1), leaveQueue_entry, if_neg hj, uncount_entry, if_neg hj]

theorem clearAlias_reasons (T : Tables) (a j : Index) (h : (T.entry j).reasons.isEmpty = true) :
    ((State.clearAlias T a).entry j).reasons.isEmpty = true := by
  have hw : ((wipeAlias T a).entry j).reasons.isEmpty = true := by
    rw [wipeAlias_entry]
    split_ifs
    · rfl
    · exact h
  rw [clearAlias_eq]
  split
  · rw [leaveTarget_entry]
    split_ifs
    · exact hw
    · exact hw
  · exact hw

theorem clearAliases_reasons (l : List Index) (T : Tables) (j : Index)
    (h : (T.entry j).reasons.isEmpty = true) :
    ((l.foldl State.clearAlias T).entry j).reasons.isEmpty = true := by
  induction l generalizing T with
  | nil => exact h
  | cons a l ih => exact ih _ (clearAlias_reasons T a j h)

/-! ## Writes of every kind -/

/-- The property is kept by the writes on ports, domains and notices, and by those of the walks. -/
structure MiscClosed (P : Tables → Prop) : Prop where
  setPort : ∀ {T : Tables} (p : PortId) (e : PortEntry), P T → P (T.setPort p e)
  setQuota : ∀ {T : Tables} (d : DomainId) (e : DomainEntry), P T → e.state = (T.domain d).state →
    P (T.setDomain d e)
  setPortNotice : ∀ {T : Tables} (p : PortId) (n : PortNotice), P T → n.isEmpty = false →
    P (T.setPortNotice p n)
  raiseClosed : ∀ {T : Tables} (d : DomainId), P T → P (T.raiseClosed d)
  raiseLoss : ∀ {T : Tables} (b : BankId), P T → P (T.raiseLoss b)
  fetch : ∀ {T : Tables} (x : Subject) (rest : List Subject), P T → T.notices = x :: rest →
    P (State.clearSubject { T with notices := rest } x)
  drop : ∀ {T : Tables}, P T → P { T with
    notices := T.notices.filter State.isRecordSubject
    portNotices := Vector.replicate 8 ⟨false, false, none⟩
    domainClosed := Vector.replicate 16 false
    bankLoss := Vector.replicate 16 false }
  wipe : ∀ {T : Tables} (i : Index) (g : Generation), P T →
    P (State.dropNotice (T.setEntry i (.freeAt g)) i)
  walked : ∀ {T : Tables}, P T → P (State.walkedTables T)

/-- The property is kept by every claim but those that change a domain's state, that fill, reserve or empty a hold
entry, place an answer or send a frame. -/
structure WalkClosed (P : Tables → Prop) : Prop extends BreakClosed P, MiscClosed P

/-- The property is kept by a change of a domain's state as well. -/
structure ClaimClosed (P : Tables → Prop) : Prop extends WalkClosed P where
  setDomain : ∀ {T : Tables} (d : DomainId) (e : DomainEntry), P T → P (T.setDomain d e)

/-- The property is kept by every write that a claim of the part makes on the tables. -/
structure Closed (P : Tables → Prop) : Prop extends HoldClosed P, MiscClosed P where
  setDomain : ∀ {T : Tables} (d : DomainId) (e : DomainEntry), P T → P (T.setDomain d e)
  reset : P Tables.reset

theorem Closed.claims {P : Tables → Prop} (c : Closed P) : ClaimClosed P where
  toBreakClosed := c.breaks
  toMiscClosed := c.toMiscClosed
  setDomain := c.setDomain

theorem Closed.completeReset {P : Tables → Prop} (c : Closed P) {T : Tables} (p : PortId) (h : P T) :
    P (T.completeReset p) :=
  c.setPortNotice _ _ (c.setPort _ _ (c.resetEntries p allTokens h)) (by simp [PortNotice.isEmpty])

namespace WalkClosed

variable {P : Tables → Prop} (c : WalkClosed P) {T : Tables}

include c

theorem fence (p : PortId) (x : FenceCause) (h : P T) : P (State.fence T p x) := by
  unfold State.fence
  split
  · exact c.setPortNotice _ _ (c.setPort _ _ h) (by simp [PortNotice.isEmpty])
  · exact c.setPortNotice _ _ h (by simp [PortNotice.isEmpty])
  all_goals exact h

theorem sweepRecord (d : DomainId) (i : Index) (h : P T) : P (State.sweepRecord T d i) := by
  unfold State.sweepRecord
  split_ifs
  · exact c.retire true true i h
  · exact h

theorem uncount (d : Option DomainId) (h : P T) : P (State.uncount T d) := by
  unfold State.uncount
  cases d with
  | none => exact h
  | some d =>
    dsimp only
    split_ifs
    · exact c.setQuota d _ h rfl
    · exact c.setQuota d _ (c.setQuota d _ h rfl) rfl

theorem clearAlias (a : Index) (h : P T) : P (State.clearAlias T a) := by
  have hw : P (wipeAlias T a) := c.freeList _ (c.wipe a _ (c.leaveQueue a (c.uncount _ h)))
  rw [clearAlias_eq]
  split
  · exact c.leaveTarget _ _ hw
  · exact hw

theorem clearAliases (l : List Index) (h : P T) : P (l.foldl State.clearAlias T) := by
  induction l generalizing T with
  | nil => exact h
  | cons a l ih => exact ih (c.clearAlias a h)

theorem clearEntry (i : Index) (h : P T) : P (State.clearEntry T i) := by
  obtain ⟨T1, hT1⟩ : ∃ T1, T1 = if (T.entry i).state = .free then T
      else State.clearLinks (State.uncount T (T.entry i).domain) i := ⟨_, rfl⟩
  have h1 : P T1 ∧ ((T.entry i).reasons.isEmpty = true → (T1.entry i).reasons.isEmpty = true) := by
    rw [hT1]
    split_ifs
    · exact ⟨h, id⟩
    · have h2 := c.uncount (T.entry i).domain h
      have hr : ((State.uncount T (T.entry i).domain).entry i).reasons = (T.entry i).reasons := by
        rw [uncount_entry]
      unfold State.clearLinks
      dsimp only
      split
      · refine ⟨c.clearAliases _ (c.leaveTarget _ _ h2), fun he => clearAliases_reasons _ _ _ ?_⟩
        rw [leaveTarget_entry]
        split_ifs <;> rw [uncount_entry] <;> exact he
      · exact ⟨c.clearAliases _ h2, fun he => clearAliases_reasons _ _ _ (hr ▸ he)⟩
  have heq : State.clearEntry T i = State.requeue (if (T.entry i).reasons.isEmpty then
      (T1.leaveQueue i).setEntry i (.freeAt ((T.entry i).generation + 1))
      else State.dropNotice ((T1.leaveQueue i).setEntry i (.freeAt ((T.entry i).generation + 1))) i) i := by
    rw [hT1]
    rfl
  rw [heq]
  refine c.freeList _ ?_
  have hleft := c.leaveQueue i h1.1
  split_ifs with he
  · refine c.setEntry i _ hleft ?_
    have hi := (isEmpty_iff _).mp (h1.2 he)
    rw [leaveQueue_entry, if_pos rfl]
    exact hi.symm
  · exact c.wipe i _ hleft

end WalkClosed

namespace ClaimClosed

variable {P : Tables → Prop} (c : ClaimClosed P) {T : Tables}

include c

theorem sweepEnd (d : DomainId) (h : P T) : P (State.sweepEnd T d) := c.raiseClosed d (c.setDomain d _ h)

theorem beginClearing (h : P T) : P (State.beginClearing T) := by
  have hdrop : ∀ (l : List Nat) (T : Tables), P T → P (l.foldl (fun T k =>
      T.modEntry (Fin.ofNat 4096 k) fun e => { e with deadline := none }) T) := by
    intro l
    induction l with
    | nil => exact fun T h => h
    | cons k l ih => exact fun T h => ih _ (c.modEntry _ _ (fun _ => rfl) h)
  have hclose : ∀ (l : List DomainId) (T : Tables), P T → P (l.foldl (fun T d =>
      T.setDomain d ⟨.closed, (T.domain d).count, (T.domain d).count⟩) T) := by
    intro l
    induction l with
    | nil => exact fun T h => h
    | cons d l ih => exact fun T h => ih _ (c.setDomain _ _ h)
  exact hclose _ _ (c.drop (hdrop _ _ (c.expiryQueue [] (c.breakAll _ _ _ h))))

end ClaimClosed

end Tables

namespace State

open Tables

/-- The tables after each acceptance claim. -/
theorem tables_accepted {P : Tables → Prop} (c : Closed P) {s t : State} (h : P s.tables)
    (ha : Accepted s t) : P t.tables := by
  have hanswer : ∀ (u : State) (st : AnswerStatus) (content : List Byte), P u.tables →
      P (u.answer st content).tables := fun u st content hu => by
    rw [answer_rest]
    exact hu
  have hask : ∀ (u : State) (job : Job), P u.tables → P (u.askEngine job).tables := fun u job hu => by
    rw [askEngine_rest]
    exact hu
  cases ha with
  | answered => exact hanswer _ _ _ h
  | configured => exact hanswer _ _ _ h
  | bound => exact hanswer _ _ _ (c.setPort _ _ h)
  | unbound => exact hanswer _ _ _ (c.setPort _ _ h)
  | portReset p =>
    refine hanswer _ _ _ ?_
    unfold beginPortReset completeIfLast
    split
    · exact c.completeReset p (c.setPort _ _ h)
    · exact c.setPort _ _ h
  | opened => exact hanswer _ _ _ (c.setDomain _ _ h)
  | quotaSet => exact hanswer _ _ _ (c.setDomain _ _ h)
  | closed => exact hanswer _ _ _ (c.breaks.breakAll _ _ _ (c.setDomain _ _ h))
  | dataTaken d i rest => exact hask _ _ (c.takeHead i rest d .dataKind none h)
  | aliasTaken d i t rest => exact hask _ _ (c.takeHead i rest d .aliasKind (some t) h)
  | deadline i x => exact hanswer _ _ _ (c.applyDeadline i x h)
  | asked => exact hask _ _ h
  | changed i x => exact hanswer _ _ _ (c.modEntry i (fun e => { e with state := x }) (fun _ => rfl) h)
  | revoked i casc brk => exact hanswer _ _ _ (c.breaks.retire casc brk i h)
  | fetched x rest _ hx => exact hanswer _ _ _ (c.fetch x rest h hx)
  | tableReset => exact c.claims.beginClearing h

theorem tables_takeFrame {P : Tables → Prop} (c : Closed P) {s : State} (p : PortId) (l : List Byte)
    (h : P s.tables) : P (s.takeFrame p l).tables := by
  rcases takeFrame_cases s p l with e | ⟨x, e⟩ | ⟨_, ⟨r, e⟩ | e⟩ <;> rw [e]
  · exact h
  · exact c.claims.fence p x h
  · unfold screen
    split
    · exact c.placeFrame _ _ h
    · dsimp only
      rw [askSlot_rest]
      exact c.reserve p _ h
  · unfold takeRelease onTables
    dsimp only
    split
    · exact c.placeFrame _ _ (c.releaseEntry p _ h)
    · exact c.placeFrame _ _ h

/-- The tables in a decision claim once the entry is settled and the answer placed, or the entry returned on a
RESETTING port (R40, R41). -/
def settled (s : State) (p : PortId) (t : Tag) (x : CheckSlot) : Tables :=
  if (s.tables.port p).state = .resetting then returnEntry s.tables p x
  else (settleEntry s.tables p x (s.decisionReason p x)).placeFrame p
    (.answer t (verdictOf x (s.decisionReason p x)))

theorem decideSlot_eq (s : State) (p : PortId) (t : Tag) (x : CheckSlot) :
    s.decideSlot p t x =
      (State.setSlot { s with tables := readDamage (s.settled p t x) x } p t none).completeIfLast p := by
  unfold decideSlot settled
  by_cases h : (s.tables.port p).state = .resetting <;> simp [h, onTables]

theorem tables_completeIfLast {P : Tables → Prop} (c : Closed P) {s : State} (p : PortId)
    (h : P s.tables) : P (s.completeIfLast p).tables := by
  unfold completeIfLast
  split
  · exact c.completeReset p h
  · exact h

theorem tables_decideSlot {P : Tables → Prop} (c : Closed P) {s : State} (p : PortId) (t : Tag)
    (x : CheckSlot) (h : P s.tables) : P (s.decideSlot p t x).tables := by
  rw [decideSlot_eq]
  refine tables_completeIfLast c p (c.breaks.readDamage x ?_)
  unfold settled
  split_ifs
  · exact c.returnEntry p x h
  · exact c.placeFrame _ _ (c.settleEntry p x _ h)

theorem tables_engineClosed {P : Tables → Prop} (c : Closed P) : EngineClosed (fun s => P s.tables) where
  result _ h := h
  extent _ h := h
  answer _ _ h := by
    rw [answer_rest]
    exact h
  damage i g h := c.breaks.damageClaim i g h
  free i h _ := c.becomeFree none i h
  ask _ h _ := by
    rw [askEngine_rest]
    exact h
  live i h _ := c.modEntry i (fun e => { e with state := .live }) (fun _ => rfl) h
  deadline i d h _ := c.enterQueue i d h

theorem tables_issuerTakes {P : Tables → Prop} (c : Closed P) {s : State} (i : Index) (g : Generation)
    (issuer : Issuer) (r : ReadResult) (h : P s.tables) : P (s.issuerTakes i g issuer r).tables := by
  cases issuer with
  | engine => exact (tables_engineClosed c).steps.engineTakesRead i g r h
  | slot p t =>
    change P (s.slotTakes p t r).tables
    rcases slotTakes_cases s p t r with e | ⟨x, _, ⟨y, _, e⟩ | ⟨y, i, g, _, e⟩⟩ <;> rw [e]
    · exact h
    · exact tables_decideSlot c p t y h
    · rw [askSlot_rest]
      exact h

theorem tables_missedRefresh {P : Tables → Prop} (c : Closed P) {s : State} (b : BankId)
    (h : P s.tables) : P (s.missedRefresh b).tables := by
  unfold missedRefresh
  dsimp only
  split_ifs
  · exact h
  · exact c.raiseLoss b (c.breaks.orderFrames _ (c.breaks.lossClaims _ h))

theorem tables_expireDue {P : Tables → Prop} (c : Closed P) {s : State} (h : P s.tables) :
    P s.expireDue.tables := by
  unfold expireDue expireHead
  split
  · split
    · split
      · exact c.expire _ h
      · exact c.leaveQueue _ h
    · exact h
  · exact h

theorem tables_expiryPassSteps {P : Tables → Prop} (c : Closed P) (n : Nat) {s : State}
    (h : P s.tables) : P (expiryPassSteps n s).tables := by
  induction n generalizing s with
  | zero => exact h
  | succ n ih => exact ih (tables_expireDue c h)

theorem choicePoint_tables (s : State) (b : BankId) : (s.choicePoint b).tables = s.tables := by
  rw [choicePoint_rest]

theorem tables_sendHead {P : Tables → Prop} (c : Closed P) {s : State} (p : PortId) (h : P s.tables) :
    P (s.sendHead p).tables := by
  unfold sendHead
  split
  · exact h
  · exact c.frameSent p _ (c.outbound _ h)

/-- A property of the tables that every write keeps is kept by every claim of the part. -/
theorem tables_claims {P : Tables → Prop} (c : Closed P) (s : State) (h : P s.tables) :
    Claims (fun t => P t.tables) s where
  assertReset := c.reset
  releaseReset := by
    unfold releaseReset
    split <;> exact h
  endStartUp := by
    unfold endStartUp
    split
    · exact c.walked h
    · exact h
  receive p l := receive_keeps p (P := fun s => P s.tables) (fun _ _ h => h)
    (fun _ l h => tables_takeFrame c p l h) s l h
  startTransmission p := by
    unfold startTransmission
    split
    · exact tables_sendHead c p h
    · exact h
  endTransmission p := by
    unfold endTransmission
    split
    · exact h
    · exact tables_sendHead c (s := s.setTransmitter p .idle) p h
  managementFrame l := managementFrame_keeps (Q := fun s => P s.tables) (fun _ _ _ _ _ _ _ h => h)
    (fun _ h => h) (fun _ _ h _ _ ha => tables_accepted c h ha) s l h
  startService b := by
    unfold startService
    dsimp only
    split
    · rw [choicePoint_tables]
      exact h
    · exact h
  completeRead b u := by
    unfold completeRead
    dsimp only
    split
    · rw [choicePoint_tables]
      refine tables_issuerTakes c _ _ _ _ ?_
      rw [leaveHead_rest, decay_rest]
      exact h
    · exact h
  completeWrite b := by
    unfold completeWrite
    dsimp only
    split
    · rw [choicePoint_tables]
      refine (tables_engineClosed c).steps.engineTakesWrite _ _ ?_
      rw [leaveHead_rest, writeCell_rest]
      exact h
    · exact h
  endReadHalf b u := by
    unfold endReadHalf
    dsimp only
    split
    · split
      · rw [choicePoint_tables]
        refine (tables_engineClosed c).steps.amendRefused _ _ _ _ ?_
        rw [leaveHead_rest, decay_rest]
        exact h
      · unfold enterWriteHalf amendWritten setJobResult
        simp only [setBank_tables]
        rw [writeCell_rest]
        refine c.breaks.amendTables _ _ _ ?_
        rw [decay_rest]
        exact h
    · exact h
  completeAmend b := by
    unfold completeAmend
    dsimp only
    split
    · rw [choicePoint_tables, answer_rest, leaveHead_rest]
      exact h
    · exact h
  admitWaiting b := by
    unfold admitWaiting
    dsimp only
    split
    · split
      · rw [choicePoint_tables, grant_rest]
        exact h
      · rw [grant_rest]
        exact h
    · exact h
  refreshTick b := by
    unfold refreshTick takeRefreshTick
    dsimp only
    split_ifs
    · exact h
    · rw [choicePoint_tables]
      exact h
    · exact h
    · exact tables_missedRefresh c b h
  startRefresh b := by
    unfold startRefresh
    dsimp only
    split
    · rw [choicePoint_tables]
      exact h
    · exact h
  finishRefresh b := by
    unfold finishRefresh
    split
    · unfold endRefresh
      rw [choicePoint_tables]
      exact h
    all_goals exact h
  retentionLoss b := by
    unfold retentionLoss
    dsimp only
    split
    · exact tables_missedRefresh c b h
    · exact h
  epochTick := by
    unfold epochTick
    split
    · exact tables_expiryPassSteps c _ (s := s.advanceEpoch) h
    · exact h
  expireDue := tables_expireDue c h
  holdTimerExpiry p t := c.breaks.breakHold _ _ _ h
  sweepVisit := by
    unfold sweepVisit
    split
    · exact h
    · dsimp only
      split
      · exact c.claims.sweepEnd _ (c.claims.sweepRecord _ _ h)
      · exact c.claims.sweepRecord _ _ h
  clearingWalkVisit := by
    unfold clearingWalkVisit
    split
    · exact h
    · dsimp only
      split
      · rw [answer_rest]
        exact c.claims.clearEntry _ h
      · exact c.claims.clearEntry _ h
  completeIfLast p := tables_completeIfLast c p h
  testDraining i := c.testDraining none i h

end State

/-! ## The Record Status Table in canonical form -/

theorem RstCanonical.modEntry {T : Tables} (h : RstCanonical T) (i : Index)
    (f : StatusEntry → StatusEntry) : RstCanonical (T.modEntry i f) := h.setEntry i _

theorem rstCanonical_allClosed : Tables.Closed RstCanonical where
  toHoldClosed := rstCanonical_closed
  setPort _ _ h := h.of_rst rfl
  setDomain _ _ h := h.of_rst rfl
  setQuota _ _ h _ := h.of_rst rfl
  setPortNotice _ _ h _ := h.of_rst rfl
  raiseClosed _ h := h.of_rst rfl
  raiseLoss _ h := h.of_rst rfl
  fetch x rest h _ := by
    cases x with
    | record i =>
      have h1 : RstCanonical ({ ‹Tables› with notices := rest }) := h.of_rst rfl
      unfold State.clearSubject
      dsimp only
      split
      · exact (h1.modEntry i _).of_rst rfl
      · exact h1.modEntry i _
    | port p => exact h.of_rst rfl
    | domain d => exact h.of_rst rfl
    | bank b => exact h.of_rst rfl
  drop h := h.of_rst rfl
  wipe i g h := (h.setEntry i _).of_rst rfl
  walked _ := ⟨rfl, fun _ hx => absurd hx List.not_mem_nil⟩
  reset := ⟨rfl, fun _ hx => absurd hx List.not_mem_nil⟩

end Sys2Proof.Machine
end

section
/-! SUPPORT. The body positions in every claim: their canonical form, and the agreement of clean pages with storage. -/

namespace Sys2Proof.Machine.State

/-- The law of the body positions: canonical form, and clean pages that agree with storage. -/
def StoreOk (s : State) : Prop := s.BodiesCanonical ∧ s.PagesClean

theorem StoreOk.of_pages {s t : State} (h : StoreOk s) (hstorage : t.storage = s.storage)
    (hera : t.bodyEra = s.bodyEra) (hpages : ∀ b, (t.bank b).openPage = (s.bank b).openPage) :
    StoreOk t := by
  have hblank : t.blankCell = s.blankCell := by simp [blankCell, hera]
  refine ⟨⟨by rw [hblank, hstorage]; exact h.1.1, fun b op hop => ?_⟩, fun b op hop hd i hi => ?_⟩
  · rw [hblank]
    exact h.1.2 b op (hpages b ▸ hop)
  · rw [hblank, hstorage]
    exact h.2 b op (hpages b ▸ hop) hd i hi

theorem StoreOk.of_same {s t : State} (h : StoreOk s) (hstorage : t.storage = s.storage)
    (hera : t.bodyEra = s.bodyEra) (hbanks : t.banks = s.banks) : StoreOk t :=
  h.of_pages hstorage hera fun b => by unfold bank; rw [hbanks]

theorem StoreOk.setBank {s : State} (h : StoreOk s) (b : BankId) (k : Bank)
    (hk : k.openPage = (s.bank b).openPage) : StoreOk (s.setBank b k) := by
  refine h.of_pages rfl rfl fun b' => ?_
  rw [bank_setBank]
  split
  · rename_i hb
    rw [hb, hk]
  · rfl

theorem StoreOk.choicePoint {s : State} (h : StoreOk s) (b : BankId) : StoreOk (s.choicePoint b) :=
  ⟨wf_choicePoint s b h.1, (sameBodies_choicePoint s b h.2).clean⟩

theorem StoreOk.joinQueue {s : State} (h : StoreOk s) (job : Job) : StoreOk (s.joinQueue job) := by
  have h1 : StoreOk (s.setBank (bankOf job.index) { s.bank (bankOf job.index) with
      queue := (s.bank (bankOf job.index)).queue ++ [job] }) := h.setBank _ _ rfl
  unfold State.joinQueue
  dsimp only
  split
  · exact h1.choicePoint _
  · exact h1

theorem StoreOk.askSlot {s : State} (h : StoreOk s) (p : PortId) (t : Tag) (job : Job) :
    StoreOk (s.askSlot p t job) := by
  have hphase : ∀ f, StoreOk (s.setSlotPhase p t f) := fun f => by
    rw [setSlotPhase_rest]
    exact h.of_same rfl rfl rfl
  unfold State.askSlot
  dsimp only
  split
  · exact (hphase .reading).joinQueue job
  · refine (hphase .admitting).setBank _ _ ?_
    rw [setSlotPhase_rest]
    rfl

theorem StoreOk.askEngine {s : State} (h : StoreOk s) (job : Job) : StoreOk (s.askEngine job) := by
  have hphase : ∀ f, StoreOk (State.setEnginePhase
      { s with engine := s.engine.map fun (e : Progress) => { e with jobs := e.jobs ++ [⟨job, none⟩] } } f) :=
    fun f => h.of_same rfl rfl rfl
  unfold State.askEngine
  dsimp only
  split
  · exact (hphase .job).joinQueue job
  · exact (hphase .admitting).setBank _ _ rfl

theorem StoreOk.grant {s : State} (h : StoreOk s) (b : BankId) : StoreOk (s.grant b) := by
  obtain ⟨l, w, v, p, _, hbank⟩ := bank_grant s b
  refine h.of_pages (by rw [grant_rest]) (by rw [grant_rest]) fun b' => ?_
  rw [hbank]
  split
  · rename_i hb
    rw [hb]
  · rfl

theorem StoreOk.leaveHead {s : State} (h : StoreOk s) (b : BankId) : StoreOk (s.leaveHead b) :=
  (h.setBank b { s.bank b with queue := (s.bank b).queue.tail, writeHalf := false } rfl).grant b

/-- A write in storage of a position whose page is not open, or is open with the position written alike. -/
theorem StoreOk.writeStorage {s : State} (h : StoreOk s) (i : Index) (c : Cell)
    (hi : ∀ op, (s.bank (bankOf i)).openPage = some op → op.page ≠ pageOf i) :
    StoreOk (s.writeStorage i c) := by
  refine ⟨wf_writeStorage s i c h.1, fun b op hop hd j hj => ?_⟩
  obtain ⟨hjb, hjp⟩ := (mem_pageIndices b op.page j).mp hj
  have hne : j ≠ i := by
    rintro rfl
    subst hjb
    exact hi op hop hjp.symm
  change _ = Table.get s.blankCell (Table.put s.blankCell s.storage i.val c) j.val
  rw [Table.get_put_ne _ _ _ _ _ (fun e => hne (Fin.ext e))]
  exact h.2 b op hop hd j hj

theorem StoreOk.writeCell {s : State} (h : StoreOk s) (i : Index) (c : Cell) :
    StoreOk (s.writeCell i c) := by
  refine ⟨wf_writeCell s i c h.1, ?_⟩
  unfold State.writeCell
  split
  · rename_i op hop
    split
    · intro b op' hop' hd
      rw [bank_setBank] at hop'
      split at hop'
      · simp only [Option.some.injEq] at hop'
        rw [← hop'] at hd
        cases hd
      · exact h.2 b op' hop' hd
    · rename_i hpage
      refine (h.writeStorage i c fun op' hop' => ?_).2
      rw [hop] at hop'
      cases hop'
      exact hpage
  · rename_i hop
    exact (h.writeStorage i c fun op' hop' => by rw [hop] at hop'; cases hop').2

theorem StoreOk.decay {s : State} (h : StoreOk s) (i : Index) (u : Option StoredBody) :
    StoreOk (s.decay i u) := by
  refine ⟨wf_decay s i u h.1, ?_⟩
  unfold State.decay
  split
  · exact h.2
  · rename_i v
    split
    · exact h.2
    · dsimp only
      split
      · rename_i op hop
        have hop : (s.bank (bankOf i)).openPage = some op := hop
        split
        · rename_i hpage
          intro b op' hop' hd j hj
          have hget : ∀ t : List (Nat × Cell), Table.get s.blankCell (Table.put s.blankCell t i.val (.stored v))
              j.val = if j.val = i.val then .stored v else Table.get s.blankCell t j.val :=
            fun t => Table.get_put _ _ _ _ _
          rw [bank_setBank] at hop'
          change _ = Table.get s.blankCell (Table.put s.blankCell s.storage i.val (.stored v)) j.val
          split at hop'
          · rename_i hb
            subst hb
            simp only [Option.some.injEq] at hop'
            subst hop'
            change Table.get s.blankCell (Table.put s.blankCell op.cells i.val (.stored v)) j.val = _
            rw [hget, hget, h.2 _ op hop hd j hj]
          · rename_i hb
            have hne : j.val ≠ i.val := fun e => by
              have hji : j = i := Fin.ext e
              exact hb (((mem_pageIndices b op'.page j).mp hj).1.symm.trans (by rw [hji]))
            rw [hget, if_neg hne]
            exact h.2 b op' hop' hd j hj
        · rename_i hpage
          refine (h.writeStorage i _ fun op' hop' => ?_).2
          rw [hop] at hop'
          cases hop'
          exact hpage
      · rename_i hop
        have hop : (s.bank (bankOf i)).openPage = none := hop
        exact (h.writeStorage i _ fun op' hop' => by rw [hop] at hop'; cases hop').2

/-- A lost page is not open: its positions are written in storage alone (R160). -/
theorem StoreOk.losePage {s : State} (h : StoreOk s) (b : BankId) (p : PageNo)
    (hp : ∀ op, (s.bank b).openPage = some op → op.page ≠ p) : StoreOk (s.losePage b p) := by
  have hfold : ∀ (l : List Index) (s : State), StoreOk s → (∀ i ∈ l, bankOf i = b ∧ pageOf i = p) →
      (∀ op, (s.bank b).openPage = some op → op.page ≠ p) →
      StoreOk (l.foldl (fun s i => s.writeStorage i (.undefined s.freeCount)) s) := by
    intro l
    induction l with
    | nil => exact fun s h _ _ => h
    | cons i l ih =>
      intro s h hl hp
      obtain ⟨hib, hip⟩ := hl i List.mem_cons_self
      refine ih _ (h.writeStorage i _ ?_) (fun j hj => hl j (List.mem_cons_of_mem _ hj)) hp
      rw [hib, hip]
      exact hp
  exact (hfold _ s h (fun i hi => (mem_pageIndices b p i).mp hi) hp).of_same rfl rfl rfl

theorem StoreOk.missedRefresh {s : State} (h : StoreOk s) (b : BankId) : StoreOk (s.missedRefresh b) := by
  have h1 := h.setBank b { s.bank b with pointer := (s.bank b).pointer + 1 } rfl
  unfold State.missedRefresh
  dsimp only
  split_ifs with hopen
  · exact h1
  · refine h1.losePage b _ fun op hop => ?_
    rw [bank_setBank, if_pos rfl] at hop
    intro hp
    have hop : (s.bank b).openPage = some op := hop
    exact hopen (by simp [pointerOpen, hop, hp])

/-! ## The law in each claim -/

theorem storeOk_accepted {s t : State} (h : StoreOk s) (ha : Accepted s t) : StoreOk t := by
  have hanswer : ∀ (u : State) (st : AnswerStatus) (content : List Byte), StoreOk u →
      StoreOk (u.answer st content) := fun u st content hu => by
    rw [answer_rest]
    exact hu.of_same rfl rfl rfl
  cases ha with
  | answered => exact hanswer _ _ _ h
  | configured => exact hanswer _ _ _ (h.of_same rfl rfl rfl)
  | bound => exact hanswer _ _ _ (h.of_same rfl rfl rfl)
  | unbound => exact hanswer _ _ _ (h.of_same rfl rfl rfl)
  | portReset p =>
    refine hanswer _ _ _ ?_
    rw [beginPortReset, completeIfLast_rest]
    exact h.of_same rfl rfl rfl
  | opened => exact hanswer _ _ _ (h.of_same rfl rfl rfl)
  | quotaSet => exact hanswer _ _ _ (h.of_same rfl rfl rfl)
  | closed => exact hanswer _ _ _ (h.of_same rfl rfl rfl)
  | dataTaken d i rest =>
    exact (h.of_same (t := (s.onTables fun T => T.takeHead i rest d .dataKind none).setTaken _)
      rfl rfl rfl).askEngine _
  | aliasTaken d i t rest =>
    exact (h.of_same (t := (s.onTables fun T => T.takeHead i rest d .aliasKind (some t)).setTaken _)
      rfl rfl rfl).askEngine _
  | deadline => exact hanswer _ _ _ (h.of_same rfl rfl rfl)
  | asked job => exact h.askEngine job
  | changed => exact hanswer _ _ _ (h.of_same rfl rfl rfl)
  | revoked => exact hanswer _ _ _ (h.of_same rfl rfl rfl)
  | fetched => exact hanswer _ _ _ (h.of_same rfl rfl rfl)
  | tableReset => exact h.of_same rfl rfl rfl

theorem StoreOk.takeFrame {s : State} (h : StoreOk s) (p : PortId) (l : List Byte) :
    StoreOk (s.takeFrame p l) := by
  rcases takeFrame_cases s p l with e | ⟨c, e⟩ | ⟨_, ⟨r, e⟩ | e⟩ <;> rw [e]
  · exact h
  · exact h.of_same rfl rfl rfl
  · unfold State.screen
    split
    · exact h.of_same rfl rfl rfl
    · have hslot : StoreOk ((s.onTables fun T => reserve T p (s.newSlot p r).token).setSlot p (frameTag l)
          (some (s.newSlot p r))) := h.of_same rfl rfl rfl
      exact hslot.askSlot p _ _
  · exact h.of_same rfl rfl rfl

theorem storeOk_engineClosed : EngineClosed StoreOk where
  result _ h := h.of_same rfl rfl rfl
  extent _ h := h.of_same rfl rfl rfl
  answer _ _ h := by
    rw [answer_rest]
    exact h.of_same rfl rfl rfl
  damage _ _ h := h.of_same rfl rfl rfl
  free _ h _ := h.of_same rfl rfl rfl
  ask job h _ := h.askEngine job
  live _ h _ := h.of_same rfl rfl rfl
  deadline _ _ h _ := h.of_same rfl rfl rfl

theorem StoreOk.issuerTakes {s : State} (h : StoreOk s) (i : Index) (g : Generation) (issuer : Issuer)
    (r : ReadResult) : StoreOk (s.issuerTakes i g issuer r) := by
  cases issuer with
  | engine => exact storeOk_engineClosed.steps.engineTakesRead i g r h
  | slot p t =>
    change StoreOk (s.slotTakes p t r)
    rcases slotTakes_cases s p t r with e | ⟨x, _, ⟨y, _, e⟩ | ⟨y, i, g, _, e⟩⟩ <;> rw [e]
    · exact h
    · rw [decideSlot_rest]
      exact h.of_same rfl rfl rfl
    · exact (h.of_same (t := s.setSlot p t (some y)) rfl rfl rfl).askSlot _ _ _

theorem storeOk_claims (s : State) (h : StoreOk s) : Claims StoreOk s where
  assertReset := by
    have hb : ∀ b, (s.assertReset.bank b).openPage = none := fun b => by
      rw [show s.assertReset.bank b = Bank.reset from pick_replicate _ _]
      rfl
    exact ⟨⟨rfl, fun b op hop => by rw [hb] at hop; cases hop⟩, pagesClean_of_closed _ hb⟩
  releaseReset := by
    unfold releaseReset
    split
    · exact h.of_same rfl rfl rfl
    · exact h
  endStartUp := by
    unfold endStartUp
    split
    · exact h.of_same rfl rfl rfl
    · exact h
  receive p l := receive_keeps p (fun _ _ h => h.of_same rfl rfl rfl) (fun _ l h => h.takeFrame p l) s l h
  startTransmission p := by
    rw [startTransmission_rest]
    exact h.of_same rfl rfl rfl
  endTransmission p := by
    rw [endTransmission_rest]
    exact h.of_same rfl rfl rfl
  managementFrame l := managementFrame_keeps (Q := StoreOk) (fun _ _ _ _ _ _ _ h => h.of_same rfl rfl rfl)
    (fun _ h => h) (fun _ _ h _ _ ha => storeOk_accepted h ha) s l h
  startService b := by
    unfold startService
    dsimp only
    split
    · exact h.choicePoint b
    · exact h
  completeRead b u := by
    unfold completeRead
    dsimp only
    split
    · exact (((h.decay _ u).leaveHead b).issuerTakes _ _ _ _).choicePoint b
    · exact h
  completeWrite b := by
    unfold completeWrite
    dsimp only
    split
    · exact (storeOk_engineClosed.steps.engineTakesWrite _ _ ((h.writeCell _ _).leaveHead b)).choicePoint b
    · exact h
  endReadHalf b u := by
    unfold endReadHalf
    dsimp only
    split
    · rename_i i g c force rest _ _ _
      split
      · exact (storeOk_engineClosed.steps.amendRefused _ _ _ _ ((h.decay _ u).leaveHead b)).choicePoint b
      · have hwritten : StoreOk ((s.decay i u).amendWritten i c ((s.decay i u).readBody i)) :=
          StoreOk.of_same (StoreOk.writeCell (s := State.onTables _ _)
            ((h.decay i u).of_same rfl rfl rfl) _ _) rfl rfl rfl
        exact hwritten.setBank b _ rfl
    · exact h
  completeAmend b := by
    unfold completeAmend
    dsimp only
    split
    · exact (storeOk_engineClosed.answer _ _ (h.leaveHead b)).choicePoint b
    · exact h
  admitWaiting b := by
    unfold admitWaiting
    dsimp only
    split
    · split
      · exact (h.grant b).choicePoint b
      · exact h.grant b
    · exact h
  refreshTick b := by
    unfold refreshTick takeRefreshTick
    dsimp only
    split_ifs
    · exact h
    · exact (h.setBank b { s.bank b with debt := (s.bank b).debt + 1 } rfl).choicePoint b
    · exact h.setBank b _ rfl
    · exact h.missedRefresh b
  startRefresh b := by
    unfold startRefresh
    dsimp only
    split
    · exact h.choicePoint b
    · exact h
  finishRefresh b := by
    unfold finishRefresh
    split
    · exact (h.setBank b { s.bank b with
        underRefresh := none, urgent := (s.bank b).urgent && decide ((s.bank b).debt ≠ 0) } rfl).choicePoint b
    all_goals exact h
  retentionLoss b := by
    unfold retentionLoss
    dsimp only
    split
    · exact h.missedRefresh b
    · exact h
  epochTick := by
    unfold epochTick
    split
    · dsimp only
      rw [expiryPassSteps_rest]
      exact h.of_same rfl rfl rfl
    · exact h
  expireDue := by
    rw [expireDue_rest]
    exact h.of_same rfl rfl rfl
  holdTimerExpiry _ _ := h.of_same rfl rfl rfl
  sweepVisit := by
    rw [sweepVisit_rest]
    exact h.of_same rfl rfl rfl
  clearingWalkVisit := by
    unfold clearingWalkVisit
    split
    · exact h
    · dsimp only
      split
      · rw [answer_rest]
        exact h.of_same rfl rfl rfl
      · exact h.of_same rfl rfl rfl
  completeIfLast p := by
    rw [completeIfLast_rest]
    exact h.of_same rfl rfl rfl
  testDraining _ := h.of_same rfl rfl rfl

/-- Settles O54: the status table is only ever written entry by entry, and the body positions by the operations of
the banks, which keep clean pages clean. -/
theorem storeLawKept : Obligations.StoreLawKept := by
  intro s t hcanon hclean hstep
  obtain ⟨hrst, hkeys, hstorage, hpages⟩ := hcanon
  have htables : RstCanonical t.tables :=
    step_keeps (Q := fun s => RstCanonical s.tables) (fun _ _ h => h) (fun _ h => h)
      (tables_claims rstCanonical_allClosed) ⟨hrst, hkeys⟩ hstep
  have hstore : StoreOk t := step_keeps (fun _ _ h => h.of_same rfl rfl rfl) (fun _ h => h) storeOk_claims
    ⟨⟨hstorage, hpages⟩, hclean⟩ hstep
  exact ⟨⟨htables.1, htables.2, hstore.1.1, hstore.1.2⟩, hstore.2⟩

end Sys2Proof.Machine.State
end

section
/-! SUPPORT. The law of the Notice List in every claim (R110 to R115). -/

namespace Sys2Proof.Machine

/-- The law of the Notice List, of the tables alone (R110). -/
def NoticesListed (T : Tables) : Prop :=
  T.notices.Nodup ∧ ∀ x : Subject, x ∈ T.notices ↔ State.owes T x = true

namespace NoticesListed

open Tables

variable {T T' : Tables}

/-- Neither the list nor what any subject owes has changed. -/
theorem of_same (h : NoticesListed T) (hn : T'.notices = T.notices)
    (ho : ∀ x, State.owes T' x = State.owes T x) : NoticesListed T' :=
  ⟨hn ▸ h.1, fun x => by rw [hn, ho, h.2]⟩

/-- One subject that did not owe comes to owe, and joins the list (R111). -/
theorem of_joined (h : NoticesListed T) (y : Subject) (hy : State.owes T y = false)
    (hn : T'.notices = T.notices ++ [y]) (ho : ∀ x, State.owes T' x = (decide (x = y) || State.owes T x)) :
    NoticesListed T' := by
  have hmem : y ∉ T.notices := fun hm => by simp [(h.2 y).mp hm] at hy
  refine ⟨?_, fun x => ?_⟩
  · rw [hn]
    exact List.nodup_append.mpr ⟨h.1, List.nodup_singleton y, fun a ha b hb => by
      rw [List.mem_singleton] at hb
      rintro rfl
      exact hmem (hb ▸ ha)⟩
  · rw [hn, ho, List.mem_append, List.mem_singleton, h.2, Bool.or_eq_true, decide_eq_true_eq]
    exact Or.comm

/-- The subjects that owe no more leave the list. -/
theorem of_filtered (h : NoticesListed T) (f : Subject → Bool) (hn : T'.notices = T.notices.filter f)
    (ho : ∀ x, State.owes T' x = (f x && State.owes T x)) : NoticesListed T' := by
  refine ⟨hn ▸ h.1.filter f, fun x => ?_⟩
  rw [hn, ho, List.mem_filter, h.2, Bool.and_eq_true]
  exact And.comm

/-- The head of the list owes no more and leaves it (R114). -/
theorem of_fetched (h : NoticesListed T) (y : Subject) (rest : List Subject) (hy : T.notices = y :: rest)
    (hn : T'.notices = rest) (ho : ∀ x, State.owes T' x = (decide (x ≠ y) && State.owes T x)) :
    NoticesListed T' := by
  have hnd := h.1
  rw [hy] at hnd
  obtain ⟨hnot, hrest⟩ := List.nodup_cons.mp hnd
  refine ⟨hn ▸ hrest, fun x => ?_⟩
  rw [hn, ho, Bool.and_eq_true, decide_eq_true_eq, ← h.2, hy, List.mem_cons]
  constructor
  · intro hx
    exact ⟨fun e => hnot (e ▸ hx), Or.inr hx⟩
  · rintro ⟨hne, hx⟩
    exact hx.resolve_left hne

theorem setEntry (h : NoticesListed T) (i : Index) (e : StatusEntry)
    (he : e.reasons = (T.entry i).reasons) : NoticesListed (T.setEntry i e) := by
  refine h.of_same (by rw [setEntry_rest]) fun x => ?_
  cases x with
  | record j =>
    simp only [State.owes, entry_setEntry]
    split_ifs with hj
    · rw [he, hj.1]
    · rfl
  | port p => rw [setEntry_rest]; rfl
  | domain d => rw [setEntry_rest]; rfl
  | bank b => rw [setEntry_rest]; rfl

theorem raiseRecord (h : NoticesListed T) (i : Index) (r : RecReason) :
    NoticesListed (T.raiseRecord i r) := by
  by_cases hfree : (T.entry i).state = .free
  · rwa [raiseRecord_free T i r hfree]
  · have howes : ∀ x, State.owes (T.raiseRecord i r) x = (decide (x = .record i) || State.owes T x) := by
      intro x
      have hrest : ∀ x, (∀ j, x ≠ .record j) → State.owes (T.raiseRecord i r) x = State.owes T x := by
        intro x hx
        have howed : ∀ T' : Tables, T'.portNotices = T.portNotices → T'.domainClosed = T.domainClosed →
            T'.bankLoss = T.bankLoss → State.owes T' x = State.owes T x := by
          intro T' hp hd hb
          cases x with
          | record j => exact absurd rfl (hx j)
          | port p => simp [State.owes, portNotice, hp]
          | domain d => simp [State.owes, hd]
          | bank b => simp [State.owes, hb]
        simp only [Tables.raiseRecord]
        split_ifs
        all_goals exact howed _ (by rw [setEntry_rest]) (by rw [setEntry_rest]) (by rw [setEntry_rest])
      cases x with
      | record j =>
        by_cases hj : j = i
        · subst hj
          simp [State.owes, raiseRecord_entry T j r hfree]
        · simp [State.owes, raiseRecord_entry_ne T i j r hj, hj]
      | port p => simpa using hrest (.port p) (by simp)
      | domain d => simpa using hrest (.domain d) (by simp)
      | bank b => simpa using hrest (.bank b) (by simp)
    by_cases he : (T.entry i).reasons.isEmpty = true
    · refine h.of_joined (.record i) (by simp [State.owes, he]) ?_ howes
      simp [Tables.raiseRecord, hfree, he]
    · refine h.of_same ?_ fun x => ?_
      · simp only [Tables.raiseRecord, hfree, he, if_false, Bool.false_eq_true]
        rw [setEntry_rest]
      · rw [howes]
        by_cases hx : x = .record i
        · subst hx
          simp [State.owes, he]
        · simp [hx]

theorem setPortNotice (h : NoticesListed T) (p : PortId) (n : PortNotice) (hn : n.isEmpty = false) :
    NoticesListed (T.setPortNotice p n) := by
  have howes : ∀ x, State.owes (T.setPortNotice p n) x = (decide (x = .port p) || State.owes T x) := by
    intro x
    cases x with
    | port q =>
      have hpick : (T.setPortNotice p n).portNotice q = if q = p then n else T.portNotice q :=
        pick_place _ _ _ _
      by_cases hq : q = p
      · subst hq
        simp [State.owes, hpick, hn]
      · simp [State.owes, hpick, hq]
    | record j => simp [State.owes]; rfl
    | domain d => simp [State.owes]
    | bank b => simp [State.owes]
  by_cases he : (T.portNotice p).isEmpty = true
  · exact h.of_joined (.port p) (by simp [State.owes, he]) (by simp [Tables.setPortNotice, he]) howes
  · refine h.of_same (by simp [Tables.setPortNotice, he]) fun x => ?_
    rw [howes]
    by_cases hx : x = .port p
    · subst hx
      simp [State.owes, he]
    · simp [hx]

theorem raiseClosed (h : NoticesListed T) (d : DomainId) : NoticesListed (T.raiseClosed d) := by
  have howes : ∀ x, State.owes (T.raiseClosed d) x = (decide (x = .domain d) || State.owes T x) := by
    intro x
    cases x with
    | domain d' =>
      change pick (place T.domainClosed d true) d' = _
      rw [pick_place]
      by_cases hd : d' = d <;> simp [hd, State.owes]
    | record j => simp [State.owes]; rfl
    | port p => simp [State.owes]; rfl
    | bank b => simp [State.owes]
  by_cases he : pick T.domainClosed d = true
  · refine h.of_same (by simp [Tables.raiseClosed, he]) fun x => ?_
    rw [howes]
    by_cases hx : x = .domain d
    · subst hx
      simp [State.owes, he]
    · simp [hx]
  · exact h.of_joined (.domain d) (by simpa [State.owes] using he) (by simp [Tables.raiseClosed, he]) howes

theorem raiseLoss (h : NoticesListed T) (b : BankId) : NoticesListed (T.raiseLoss b) := by
  have howes : ∀ x, State.owes (T.raiseLoss b) x = (decide (x = .bank b) || State.owes T x) := by
    intro x
    cases x with
    | bank b' =>
      change pick (place T.bankLoss b true) b' = _
      rw [pick_place]
      by_cases hb : b' = b <;> simp [hb, State.owes]
    | record j => simp [State.owes]; rfl
    | port p => simp [State.owes]; rfl
    | domain d => simp [State.owes]
  by_cases he : pick T.bankLoss b = true
  · refine h.of_same (by simp [Tables.raiseLoss, he]) fun x => ?_
    rw [howes]
    by_cases hx : x = .bank b
    · subst hx
      simp [State.owes, he]
    · simp [hx]
  · exact h.of_joined (.bank b) (by simpa [State.owes] using he) (by simp [Tables.raiseLoss, he]) howes

/-- The fetch of the head clears what it owed (R115). -/
theorem fetch (h : NoticesListed T) (y : Subject) (rest : List Subject) (hy : T.notices = y :: rest) :
    NoticesListed (State.clearSubject { T with notices := rest } y) := by
  cases y with
  | record i =>
    have hentry : ∀ j, (({ T with notices := rest } : Tables).modEntry i fun e =>
        { e with reasons := .empty, noticeGen := none }).entry j =
        if j = i ∧ i ≠ 0 then { T.entry j with reasons := .empty, noticeGen := none } else T.entry j :=
      fun j => entry_modEntry _ i j _
    have hi : i ≠ 0 := by
      rintro rfl
      have := (h.2 (.record 0)).mp (by rw [hy]; exact List.mem_cons_self)
      simp [State.owes, StatusEntry.blank, StatusEntry.freeAt, RecordReasons.isEmpty,
        RecordReasons.empty] at this
    have hstep : NoticesListed (({ T with notices := rest } : Tables).modEntry i fun e =>
        { e with reasons := .empty, noticeGen := none }) := by
      refine h.of_fetched (.record i) rest hy (by rw [modEntry_rest]) fun x => ?_
      cases x with
      | record j =>
        simp only [State.owes, hentry]
        by_cases hj : j = i
        · simp [hj, hi, RecordReasons.isEmpty, RecordReasons.empty]
        · simp [hj]
      | port p => rw [modEntry_rest]; simp [State.owes]; rfl
      | domain d => rw [modEntry_rest]; simp [State.owes]
      | bank b => rw [modEntry_rest]; simp [State.owes]
    unfold State.clearSubject
    dsimp only
    split
    · exact hstep.of_same rfl fun x => by cases x <;> rfl
    · exact hstep
  | port p =>
    refine h.of_fetched (.port p) rest hy rfl fun x => ?_
    cases x with
    | port q =>
      change (!(pick (place T.portNotices p ⟨false, false, none⟩) q).isEmpty) = _
      rw [pick_place]
      by_cases hq : q = p
      · simp [hq, PortNotice.isEmpty]
      · simp [hq, State.owes, portNotice]
    | record j => simp [State.owes]; rfl
    | domain d => simp [State.owes]; rfl
    | bank b => simp [State.owes]; rfl
  | domain d =>
    refine h.of_fetched (.domain d) rest hy rfl fun x => ?_
    cases x with
    | domain d' =>
      change pick (place T.domainClosed d false) d' = _
      rw [pick_place]
      by_cases hd : d' = d <;> simp [hd, State.owes]
    | record j => simp [State.owes]; rfl
    | port p => simp [State.owes]; rfl
    | bank b => simp [State.owes]; rfl
  | bank b =>
    refine h.of_fetched (.bank b) rest hy rfl fun x => ?_
    cases x with
    | bank b' =>
      change pick (place T.bankLoss b false) b' = _
      rw [pick_place]
      by_cases hb : b' = b <;> simp [hb, State.owes]
    | record j => simp [State.owes]; rfl
    | port p => simp [State.owes]; rfl
    | domain d => simp [State.owes]; rfl

/-- A record whose entry is wiped owes nothing, and its subject leaves the list (R119, R186). -/
theorem wipe (h : NoticesListed T) (i : Index) (g : Generation) :
    NoticesListed (State.dropNotice (T.setEntry i (.freeAt g)) i) := by
  refine h.of_filtered (fun x => x != .record i) ?_ fun x => ?_
  · change ((T.setEntry i (.freeAt g)).notices.filter fun x => x != .record i) = _
    rw [setEntry_rest]
  · cases x with
    | record j =>
      change (!((T.setEntry i (.freeAt g)).entry j).reasons.isEmpty) = _
      rw [entry_setEntry]
      by_cases hj : j = i
      · subst hj
        by_cases h0 : j = 0
        · subst h0
          simp [StatusEntry.blank, StatusEntry.freeAt, RecordReasons.isEmpty, RecordReasons.empty]
        · simp [h0, StatusEntry.freeAt, RecordReasons.isEmpty, RecordReasons.empty]
      · simp [hj, State.owes]
    | port p =>
      change (!((T.setEntry i (.freeAt g)).portNotice p).isEmpty) = _
      rw [setEntry_rest]
      simp [State.owes]
      rfl
    | domain d =>
      change pick (T.setEntry i (.freeAt g)).domainClosed d = _
      rw [setEntry_rest]
      simp [State.owes]
    | bank b =>
      change pick (T.setEntry i (.freeAt g)).bankLoss b = _
      rw [setEntry_rest]
      simp [State.owes]

theorem reset : NoticesListed Tables.reset := by
  refine ⟨List.nodup_nil, fun x => ?_⟩
  cases x with
  | record i =>
    have he : Tables.reset.entry i = .blank := by
      unfold entry
      split <;> rfl
    have howes : State.owes Tables.reset (.record i) = false := by
      simp only [State.owes, he]
      rfl
    rw [howes]
    simp [Tables.reset]
  | port p => simp [State.owes, Tables.reset, portNotice, PortNotice.isEmpty]
  | domain d => simp [State.owes, Tables.reset]
  | bank b => simp [State.owes, Tables.reset]

theorem closed : Closed NoticesListed where
  setEntry i e h he := h.setEntry i e he
  raiseRecord i r h := h.raiseRecord i r
  count _ _ h := h.of_same rfl fun x => by cases x <;> rfl
  freeList _ h := h.of_same rfl fun x => by cases x <;> rfl
  expiryQueue _ h := h.of_same rfl fun x => by cases x <;> rfl
  setHold _ _ _ h := h.of_same rfl fun x => by cases x <;> rfl
  fillOrder _ h := h.of_same rfl fun x => by cases x <;> rfl
  outbound _ h := h.of_same rfl fun x => by cases x <;> rfl
  setPort _ _ h := h.of_same rfl fun x => by cases x <;> rfl
  setDomain _ _ h := h.of_same rfl fun x => by cases x <;> rfl
  setQuota _ _ h _ := h.of_same rfl fun x => by cases x <;> rfl
  setPortNotice p n h hn := h.setPortNotice p n hn
  raiseClosed d h := h.raiseClosed d
  raiseLoss b h := h.raiseLoss b
  fetch x rest h hx := h.fetch x rest hx
  drop h := h.of_filtered State.isRecordSubject rfl fun x => by
    cases x with
    | record i => simp [State.isRecordSubject, State.owes]; rfl
    | port p => simp [State.isRecordSubject, State.owes, portNotice, PortNotice.isEmpty]
    | domain d => simp [State.isRecordSubject, State.owes]
    | bank b => simp [State.isRecordSubject, State.owes]
  wipe i g h := h.wipe i g
  walked h := h.of_filtered (fun x => !State.isRecordSubject x) rfl fun x => by
    cases x with
    | record i =>
      have he : ∀ T, (State.walkedTables T).entry i = .blank := fun T => by
        unfold entry
        split <;> rfl
      simp [State.isRecordSubject, State.owes, he, StatusEntry.blank, StatusEntry.freeAt,
        RecordReasons.isEmpty, RecordReasons.empty]
    | port p => simp [State.isRecordSubject, State.owes]; rfl
    | domain d => simp [State.isRecordSubject, State.owes]; rfl
    | bank b => simp [State.isRecordSubject, State.owes]; rfl
  reset := reset

end NoticesListed

/-- Settles O52: a subject joins the list in the write that gives it its first reason, and leaves it in the write that
clears its reasons; no other write of any claim touches the list or a reason. -/
theorem noticeLawKept : Obligations.NoticeLawKept :=
  fun _ _ h hstep => State.step_keeps (Q := fun s => NoticesListed s.tables) (fun _ _ h => h) (fun _ h => h)
    (State.tables_claims NoticesListed.closed) h hstep

end Sys2Proof.Machine
end

section
/-! SUPPORT. The laws of reservations, of the fill order and of the outbound queues, as laws of the tables beside what
the request slots have reserved (R27, R51, R59, R165, R168). -/

namespace Sys2Proof.Machine

/-! ## What the operations leave of holds and queues -/

namespace Tables

variable (T : Tables)

/-- A property that reads nothing a write on records touches is kept by those writes. -/
theorem recordClosed_of_sameHolds {P : Tables → Prop} (hP : ∀ T T', SameHolds T T' → P T → P T') :
    RecordClosed P where
  setEntry i e h he := hP _ _ ((sameHolds_closed _).setEntry i e (.refl _) he) h
  raiseRecord i r h := hP _ _ ((sameHolds_closed _).raiseRecord i r (.refl _)) h
  count d n h := hP _ _ ((sameHolds_closed _).count d n (.refl _)) h
  freeList l h := hP _ _ ((sameHolds_closed _).freeList l (.refl _)) h
  expiryQueue l h := hP _ _ ((sameHolds_closed _).expiryQueue l (.refl _)) h

/-- The pins and the writer that the end of a hold changes (R55 steps 3 and 4). -/
theorem unpin_eq (p : PortId) (t : Token) (h : HeldHold) (next : HoldEntry) :
    ∃ T1, SameHolds { T with fillOrder := T.fillOrder.erase (p, t) } T1 ∧
      T.unpin p t h next = T1.setHold p t next := by
  have c := sameHolds_closed { T with fillOrder := T.fillOrder.erase (p, t) }
  have h1 := c.dropPins h (SameHolds.refl _)
  unfold unpin
  dsimp only
  split_ifs
  · exact ⟨_, c.setWriter _ none h1, rfl⟩
  · exact ⟨_, h1, rfl⟩

theorem unpin_hold (p p' : PortId) (t t' : Token) (h : HeldHold) (next : HoldEntry) :
    (T.unpin p t h next).hold p' t' = if p' = p ∧ t' = t then next else T.hold p' t' := by
  obtain ⟨T1, h1, e⟩ := T.unpin_eq p t h next
  rw [e, hold_setHold, h1.hold]
  rfl

theorem unpin_queueOf (p p' : PortId) (t : Token) (h : HeldHold) (next : HoldEntry) :
    (T.unpin p t h next).queueOf p' = T.queueOf p' := by
  obtain ⟨T1, h1, e⟩ := T.unpin_eq p t h next
  rw [e]
  exact h1.queueOf p'

theorem unpin_fillOrder (p : PortId) (t : Token) (h : HeldHold) (next : HoldEntry) :
    (T.unpin p t h next).fillOrder = T.fillOrder.erase (p, t) := by
  obtain ⟨T1, h1, e⟩ := T.unpin_eq p t h next
  rw [e]
  exact h1.fillOrder

/-- The hold that a break ends, and the others (R63). -/
theorem breakUnpin_hold (reason : BreakReason) (p p' : PortId) (t t' : Token) (h : HeldHold) :
    (T.breakUnpin reason p t h).hold p' t' =
      if p' = p ∧ t' = t then .broken reason (sendsBroken (T.port p).state) else T.hold p' t' := by
  unfold breakUnpin
  dsimp only
  split_ifs <;> simp_all [unpin_hold]

theorem breakUnpin_queueOf (reason : BreakReason) (p p' : PortId) (t : Token) (h : HeldHold) :
    (T.breakUnpin reason p t h).queueOf p' =
      if p' = p ∧ sendsBroken (T.port p).state = true then T.queueOf p ++ [.broken t reason]
      else T.queueOf p' := by
  unfold breakUnpin
  dsimp only
  split_ifs <;> simp_all [unpin_queueOf, queueOf_placeFrame]

theorem breakUnpin_fillOrder (reason : BreakReason) (p : PortId) (t : Token) (h : HeldHold) :
    (T.breakUnpin reason p t h).fillOrder = T.fillOrder.erase (p, t) := by
  unfold breakUnpin
  dsimp only
  split
  · exact T.unpin_fillOrder p t h (.broken reason (sendsBroken (T.port p).state))
  · exact T.unpin_fillOrder p t h (.broken reason (sendsBroken (T.port p).state))

theorem queueOf_withdraw (p p' : PortId) (t : Token) :
    (T.withdraw p t).queueOf p' =
      if p' = p then (T.queueOf p).filter (fun f => !brokenFrameOf t f) else T.queueOf p' :=
  pick_place _ _ _ _

end Tables

/-! ## The law beside the reservations of the slots -/

namespace State

/-- The requests that stand in the slots: the kind of each, and the token that it has reserved. -/
def reservations (s : State) (p : PortId) (g : Tag) : Option (CheckKind × Option Token) :=
  (s.slot p g).map fun x => (x.request.kind, x.token)

/-- The laws of holds and links, of tables beside what the slots have reserved. -/
structure Linked (k : PortId → Tag → Option (CheckKind × Option Token)) (T : Tables) : Prop where
  reserved : ∀ p t, T.hold p t = .reserved ↔ ∃ g c, k p g = some (c, some t)
  unique : ∀ p g g' t c c', k p g = some (c, some t) → k p g' = some (c', some t) → g = g'
  nodup : T.fillOrder.Nodup
  filled : ∀ p t, (p, t) ∈ T.fillOrder ↔ isHeld (T.hold p t) = true
  answers : ∀ p g, ((T.queueOf p).filter (answerOf g)).length + (k p g).isSome.toNat ≤ 1
  broken : ∀ p t, ((T.queueOf p).filter (Tables.brokenFrameOf t)).length =
    (frameWaits (T.hold p t)).toNat

theorem ite_one_eq_toNat (b : Bool) : (if b = true then 1 else 0) = b.toNat := by cases b <;> rfl

theorem linkLaw_iff (s : State) : s.LinkLaw ↔ Linked s.reservations s.tables := by
  have htag : ∀ p g, s.tagInTable p g = (s.reservations p g).isSome := fun p g => by
    simp [tagInTable, reservations]
  have hres : ∀ p t, (∃ g x, s.slot p g = some x ∧ x.token = some t) ↔
      ∃ g c, s.reservations p g = some (c, some t) := by
    intro p t
    constructor
    · rintro ⟨g, x, hx, ht⟩
      exact ⟨g, x.request.kind, by simp [reservations, hx, ht]⟩
    · rintro ⟨g, c, hc⟩
      obtain ⟨x, hx, hk⟩ := Option.map_eq_some_iff.mp hc
      exact ⟨g, x, hx, congrArg Prod.snd hk⟩
  constructor
  · rintro ⟨⟨h1, h2⟩, ⟨h3, h4⟩, h5⟩
    refine ⟨fun p t => (h1 p t).trans (hres p t), ?_, h3, h4, fun p g => ?_, fun p t =>
      ((h5 p).2 t).trans (ite_one_eq_toNat _)⟩
    · intro p g g' t c c' hc hc'
      obtain ⟨x, hx, hk⟩ := Option.map_eq_some_iff.mp hc
      obtain ⟨x', hx', hk'⟩ := Option.map_eq_some_iff.mp hc'
      exact h2 p g g' x x' t hx hx' (congrArg Prod.snd hk) (congrArg Prod.snd hk')
    · rw [← htag, ← ite_one_eq_toNat]
      exact (h5 p).1 g
  · intro h
    refine ⟨⟨fun p t => (h.reserved p t).trans (hres p t).symm, ?_⟩, ⟨h.nodup, h.filled⟩, fun p =>
      ⟨fun g => by rw [htag, ite_one_eq_toNat]; exact h.answers p g, fun t =>
        (h.broken p t).trans (ite_one_eq_toNat _).symm⟩⟩
    intro p g g' x x' t hx hx' ht ht'
    exact h.unique p g g' t x.request.kind x'.request.kind (by simp [reservations, hx, ht])
      (by simp [reservations, hx', ht'])

namespace Linked

open Tables

variable {k : PortId → Tag → Option (CheckKind × Option Token)} {T T' : Tables}

theorem of_same (h : Linked k T) (hh : ∀ p t, T'.hold p t = T.hold p t)
    (hf : T'.fillOrder = T.fillOrder) (hq : ∀ p, T'.queueOf p = T.queueOf p) : Linked k T' where
  reserved p t := by rw [hh]; exact h.reserved p t
  unique := h.unique
  nodup := hf ▸ h.nodup
  filled p t := by rw [hh, hf]; exact h.filled p t
  answers p g := by rw [hq]; exact h.answers p g
  broken p t := by rw [hh, hq]; exact h.broken p t

theorem of_sameHolds (h : Linked k T) (hs : SameHolds T T') : Linked k T' :=
  h.of_same hs.hold hs.fillOrder hs.queueOf

/-- The end of a hold that was HELD: the entry leaves the fill order, and its frame is placed where it records one
as waiting (R55, R63). -/
theorem ended (h : Linked k T) (p : PortId) (t : Token) (y : HeldHold) (hy : T.hold p t = .held y)
    (x : HoldEntry) (l : List OutFrame) (hx : x = .empty ∧ l = [] ∨
      ∃ r w, x = .broken r w ∧ l = if w then [.broken t r] else [])
    (hh : ∀ p' t', T'.hold p' t' = if p' = p ∧ t' = t then x else T.hold p' t')
    (hf : T'.fillOrder = T.fillOrder.erase (p, t))
    (hq : ∀ p', T'.queueOf p' = if p' = p then T.queueOf p ++ l else T.queueOf p') : Linked k T' := by
  have hres : x ≠ .reserved := by rcases hx with ⟨rfl, _⟩ | ⟨r, w, rfl, _⟩ <;> simp
  have hheld : isHeld x = false := by rcases hx with ⟨rfl, _⟩ | ⟨r, w, rfl, _⟩ <;> rfl
  have hans : ∀ g, l.filter (answerOf g) = [] := fun g => by
    rcases hx with ⟨_, rfl⟩ | ⟨r, w, _, rfl⟩
    · rfl
    · cases w <;> rfl
  have hbrk : ∀ t', (l.filter (brokenFrameOf t')).length =
      if t' = t then (frameWaits x).toNat else 0 := fun t' => by
    rcases hx with ⟨rfl, rfl⟩ | ⟨r, w, rfl, rfl⟩
    · simp [frameWaits]
    · cases w
      · simp [frameWaits]
      · by_cases ht : t' = t
        · simp [ht, frameWaits, brokenFrameOf]
        · simp [ht, Ne.symm ht, brokenFrameOf]
  refine ⟨fun p' t' => ?_, h.unique, ?_, fun p' t' => ?_, fun p' g => ?_, fun p' t' => ?_⟩
  · rw [← h.reserved, hh]
    split_ifs with he
    · rw [he.1, he.2, hy]
      simp [hres]
    · rfl
  · rw [hf]
    exact h.nodup.erase _
  · rw [hf, hh, h.nodup.mem_erase_iff, h.filled]
    split_ifs with he
    · simp [he, hheld]
    · have hne : (p', t') ≠ (p, t) := fun e => he (Prod.mk.inj e)
      simp [hne]
  · rw [hq]
    split_ifs with hp
    · rw [List.filter_append, hans, List.append_nil, hp]
      exact h.answers p g
    · exact h.answers p' g
  · rw [hq, hh]
    have hb := h.broken p' t'
    by_cases hp : p' = p
    · subst hp
      rw [if_pos rfl, List.filter_append, List.length_append, hb, hbrk]
      by_cases ht : t' = t
      · subst ht
        simp [hy, frameWaits]
      · simp [ht]
    · simp [hp, hb]

theorem ordered (h : Linked k T) (T0 : Tables) : Linked k (orderFrames T0 T) where
  reserved := h.reserved
  unique := h.unique
  nodup := h.nodup
  filled := h.filled
  answers p g := by
    rw [((orderFrames_perm T T0 p).filter _).length_eq]
    exact h.answers p g
  broken p t := by
    rw [((orderFrames_perm T T0 p).filter _).length_eq]
    exact h.broken p t

/-- Writes on records, breaks and the order of a claim's frames keep the laws. -/
theorem breakClosed : BreakClosed (Linked k) where
  toRecordClosed := recordClosed_of_sameHolds fun _ _ hs h => h.of_sameHolds hs
  breakUnpin reason p t y h hy := by
    refine h.ended p t y hy (.broken reason _) _ (Or.inr ⟨reason, _, rfl, rfl⟩)
      (breakUnpin_hold _ reason p · t · y) (breakUnpin_fillOrder ..) fun p' => ?_
    rw [breakUnpin_queueOf]
    split_ifs <;> simp_all
  orderFrames T0 h := h.ordered T0

theorem unpin (h : Linked k T) (p : PortId) (t : Token) (y : HeldHold) (hy : T.hold p t = .held y) :
    Linked k (T.unpin p t y .empty) :=
  h.ended p t y hy .empty [] (Or.inl ⟨rfl, rfl⟩) (unpin_hold _ p · t · y .empty) (unpin_fillOrder ..)
    fun p' => by
      rw [unpin_queueOf]
      split_ifs with hp
      · rw [hp, List.append_nil]
      · rfl

/-- A BROKEN entry becomes EMPTY, its frame withdrawn (R57, R59, R72). -/
theorem emptied (h : Linked k T) (p : PortId) (t : Token) (r : BreakReason) (w : Bool)
    (hw : T.hold p t = .broken r w) : Linked k ((T.withdraw p t).setHold p t .empty) := by
  have hh : ∀ p' t', ((T.withdraw p t).setHold p t .empty).hold p' t' =
      if p' = p ∧ t' = t then .empty else T.hold p' t' := fun p' t' => hold_setHold _ p p' t t' .empty
  have hq : ∀ p', ((T.withdraw p t).setHold p t .empty).queueOf p' =
      if p' = p then (T.queueOf p).filter (fun f => !brokenFrameOf t f) else T.queueOf p' :=
    fun p' => T.queueOf_withdraw p p' t
  refine ⟨fun p' t' => ?_, h.unique, h.nodup, fun p' t' => ?_, fun p' g => ?_, fun p' t' => ?_⟩
  · rw [← h.reserved, hh]
    split_ifs with he
    · simp [he.1, he.2, hw]
    · rfl
  · change (p', t') ∈ T.fillOrder ↔ _
    rw [hh, h.filled]
    split_ifs with he
    · simp [he.1, he.2, hw, isHeld]
    · rfl
  · rw [hq]
    split_ifs with hp
    · have hsub := ((List.filter_sublist (p := fun f => !brokenFrameOf t f) (l := T.queueOf p)).filter
        (answerOf g)).length_le
      have := h.answers p g
      rw [hp]
      omega
    · exact h.answers p' g
  · rw [hq, hh]
    have hb := h.broken p' t'
    by_cases hp : p' = p
    · subst hp
      rw [if_pos rfl, List.filter_filter]
      by_cases ht : t' = t
      · subst ht
        simp [frameWaits]
      · have heq : ∀ f, (brokenFrameOf t' f && !brokenFrameOf t f) = brokenFrameOf t' f := by
          intro f
          cases f with
          | answer g v => rfl
          | broken t2 r2 =>
            by_cases h2 : t2 = t'
            · simp [brokenFrameOf, h2, ht]
            · simp [brokenFrameOf, h2]
        simp only [heq, ht, and_false, if_false]
        exact hb
    · simp [hp, hb]

/-! ## Slots, answers and frames sent -/

/-- An ANSWER is placed for a tag that is not outstanding (R165, R168). -/
theorem placed (h : Linked k T) (p : PortId) (g : Tag) (v : Verdict) (hk : k p g = none)
    (hq : ∀ f ∈ T.queueOf p, answerOf g f = false) : Linked k (T.placeFrame p (.answer g v)) := by
  refine ⟨h.reserved, h.unique, h.nodup, h.filled, fun p' g' => ?_, fun p' t' => ?_⟩
  · rw [queueOf_placeFrame]
    split_ifs with hp
    · subst hp
      by_cases hg : g' = g
      · subst hg
        rw [List.filter_append, List.filter_eq_nil_iff.mpr fun f hf => by simp [hq f hf], hk]
        simp [answerOf]
      · simpa [List.filter_append, answerOf, Ne.symm hg] using h.answers p' g'
    · exact h.answers p' g'
  · rw [queueOf_placeFrame]
    have := h.broken p' t'
    split_ifs with hp
    · subst hp
      simpa [List.filter_append, brokenFrameOf] using this
    · exact this

/-- The same requests stand in the slots. -/
theorem of_reservations {k' : PortId → Tag → Option (CheckKind × Option Token)} (h : Linked k T)
    (hk : ∀ p g, k' p g = k p g) : Linked k' T := by
  have : k' = k := funext fun p => funext fun g => hk p g
  exact this ▸ h

/-- A tag that stands in a slot has no ANSWER waiting (R165). -/
theorem no_answer (h : Linked k T) (p : PortId) (g : Tag) (x : CheckKind × Option Token) (hx : k p g = some x) :
    ∀ f ∈ T.queueOf p, answerOf g f = false := by
  have := h.answers p g
  rw [hx] at this
  have hnil : (T.queueOf p).filter (answerOf g) = [] := List.eq_nil_of_length_eq_zero (by simpa using this)
  exact fun f hf => by simpa using List.filter_eq_nil_iff.mp hnil f hf

/-- The slots with one of them changed. -/
def withSlot (k : PortId → Tag → Option (CheckKind × Option Token)) (p : PortId) (g : Tag)
    (x : Option (CheckKind × Option Token)) : PortId → Tag → Option (CheckKind × Option Token) :=
  fun p' g' => if p' = p ∧ g' = g then x else k p' g'

/-- A request that is not outstanding takes its slot, and its entry, which was EMPTY, becomes RESERVED (R27). -/
theorem reserve (h : Linked k T) (p : PortId) (g : Tag) (c : CheckKind) (tok : Option Token)
    (hk : k p g = none) (hq : ∀ f ∈ T.queueOf p, answerOf g f = false)
    (htok : ∀ t, tok = some t → T.hold p t = .empty) :
    Linked (withSlot k p g (some (c, tok))) (State.reserve T p tok) := by
  have hh : ∀ p' t', (State.reserve T p tok).hold p' t' =
      if p' = p ∧ tok = some t' then .reserved else T.hold p' t' := by
    intro p' t'
    cases tok with
    | none => simp [State.reserve]
    | some t =>
      change (T.setHold p t .reserved).hold p' t' = _
      rw [hold_setHold]
      simp [eq_comm]
  have hqq : ∀ p', (State.reserve T p tok).queueOf p' = T.queueOf p' := fun p' => by cases tok <;> rfl
  have hff : (State.reserve T p tok).fillOrder = T.fillOrder := by cases tok <;> rfl
  have hnone : ∀ t, tok = some t → ∀ g' c', k p g' ≠ some (c', some t) := fun t ht g' c' hc => by
    have := (h.reserved p t).mpr ⟨g', c', hc⟩
    rw [htok t ht] at this
    cases this
  refine ⟨fun p' t' => ?_, ?_, hff ▸ h.nodup, fun p' t' => ?_, fun p' g' => ?_, fun p' t' => ?_⟩
  · rw [hh]
    split_ifs with he
    · refine ⟨fun _ => ⟨g, c, ?_⟩, fun _ => rfl⟩
      simp [withSlot, he.1, he.2]
    · rw [h.reserved]
      constructor
      · rintro ⟨g', c', hc⟩
        refine ⟨g', c', ?_⟩
        have : ¬ (p' = p ∧ g' = g) := by rintro ⟨rfl, rfl⟩; rw [hk] at hc; cases hc
        simp [withSlot, this, hc]
      · rintro ⟨g', c', hc⟩
        unfold withSlot at hc
        split_ifs at hc with hpg
        · simp only [Option.some.injEq, Prod.mk.injEq] at hc
          exact absurd ⟨hpg.1, hc.2⟩ he
        · exact ⟨g', c', hc⟩
  · intro p' g1 g2 t c1 c2 h1 h2
    unfold withSlot at h1 h2
    split_ifs at h1 h2 with e1 e2 e2
    · rw [e1.2, e2.2]
    · simp only [Option.some.injEq, Prod.mk.injEq] at h1
      exact absurd (e1.1 ▸ h2) (hnone t h1.2 g2 c2)
    · simp only [Option.some.injEq, Prod.mk.injEq] at h2
      exact absurd (e2.1 ▸ h1) (hnone t h2.2 g1 c1)
    · exact h.unique p' g1 g2 t c1 c2 h1 h2
  · rw [hff, hh, h.filled]
    split_ifs with he
    · rw [he.1, htok t' he.2]
      simp [isHeld]
    · rfl
  · rw [hqq]
    unfold withSlot
    split_ifs with he
    · rw [he.1, he.2, List.filter_eq_nil_iff.mpr fun f hf => by simp [hq f hf]]
      simp
    · exact h.answers p' g'
  · rw [hqq, hh, h.broken]
    split_ifs <;> simp_all [frameWaits]

/-- A request leaves its slot, and its reserved entry is EMPTY or HELD, with the entry in the fill order where it
is HELD (R27, R40, R54). -/
theorem settle (h : Linked k T) (p : PortId) (g : Tag) (c : CheckKind) (tok : Option Token)
    (hk : k p g = some (c, tok)) (x : HoldEntry) (hx : x = .empty ∨ ∃ y, x = .held y)
    (hh : ∀ p' t', T'.hold p' t' = if p' = p ∧ tok = some t' then x else T.hold p' t')
    (hf : T'.fillOrder = T.fillOrder ++ if isHeld x then tok.toList.map (Prod.mk p) else [])
    (hq : ∀ p', T'.queueOf p' = T.queueOf p') : Linked (withSlot k p g none) T' := by
  have hres : ∀ t, tok = some t → T.hold p t = .reserved := fun t ht =>
    (h.reserved p t).mpr ⟨g, c, ht ▸ hk⟩
  have hxr : x ≠ .reserved := by rcases hx with rfl | ⟨y, rfl⟩ <;> simp
  have hxw : frameWaits x = false := by rcases hx with rfl | ⟨y, rfl⟩ <;> rfl
  refine ⟨fun p' t' => ?_, ?_, ?_, fun p' t' => ?_, fun p' g' => ?_, fun p' t' => ?_⟩
  · rw [hh]
    split_ifs with he
    · refine iff_of_false hxr ?_
      rintro ⟨g', c', hc⟩
      unfold withSlot at hc
      split_ifs at hc with hpg
      have hg := h.unique p g' g t' c' c (he.1 ▸ hc) (he.2 ▸ hk)
      exact hpg ⟨he.1, hg⟩
    · rw [h.reserved]
      constructor
      · rintro ⟨g', c', hc⟩
        have : ¬ (p' = p ∧ g' = g) := by
          rintro ⟨rfl, rfl⟩
          rw [hk] at hc
          simp only [Option.some.injEq, Prod.mk.injEq] at hc
          exact he ⟨rfl, hc.2⟩
        exact ⟨g', c', by simp [withSlot, this, hc]⟩
      · rintro ⟨g', c', hc⟩
        unfold withSlot at hc
        split_ifs at hc
        exact ⟨g', c', hc⟩
  · intro p' g1 g2 t c1 c2 h1 h2
    unfold withSlot at h1 h2
    split_ifs at h1 h2
    exact h.unique p' g1 g2 t c1 c2 h1 h2
  · rw [hf]
    cases tok with
    | none => simpa using h.nodup
    | some t =>
      have hnot : (p, t) ∉ T.fillOrder := fun hm => by
        have := (h.filled p t).mp hm
        rw [hres t rfl] at this
        cases this
      cases isHeld x with
      | false => simpa using h.nodup
      | true => exact List.nodup_append.mpr ⟨h.nodup, List.nodup_singleton _, fun a ha b hb => by
        rw [List.mem_singleton.mp hb]
        rintro rfl
        exact hnot ha⟩
  · rw [hf, hh, List.mem_append, h.filled]
    split_ifs with hheld he he
    · simp [he.1, he.2, hres t' he.2, hheld]
    · simp only [or_iff_left_iff_imp]
      intro hm
      simp only [Option.mem_toList, List.mem_map, Prod.mk.injEq] at hm
      obtain ⟨t, ht, hp, rfl⟩ := hm
      exact absurd ⟨hp.symm, ht⟩ he
    · rw [he.1, hres t' he.2]
      simpa [isHeld] using hheld
    · simp
  · rw [hq]
    unfold withSlot
    have := h.answers p' g'
    split_ifs
    · exact (Nat.add_le_add_left (Nat.zero_le _) _).trans this
    · exact this
  · rw [hq, hh, h.broken]
    split_ifs <;> simp_all [frameWaits]

/-- The head of a queue begins to be sent (R59, R169). -/
theorem sent (h : Linked k T) (p : PortId) (f : OutFrame) (rest : List OutFrame)
    (hq : T.queueOf p = f :: rest) : Linked k (frameSent (T.setQueue p rest) p f) := by
  have hfirst : Linked k T → ∀ t, brokenFrameOf t f = false →
      (rest.filter (brokenFrameOf t)).length = (frameWaits (T.hold p t)).toNat := by
    intro h t hf
    have := h.broken p t
    rwa [hq, List.filter_cons_of_neg (by simp [hf])] at this
  have hans : ∀ g, (rest.filter (answerOf g)).length + (k p g).isSome.toNat ≤ 1 := fun g => by
    have := h.answers p g
    rw [hq] at this
    have hsub := ((List.sublist_cons_self f rest).filter (answerOf g)).length_le
    omega
  have hqueue : ∀ p', (T.setQueue p rest).queueOf p' = if p' = p then rest else T.queueOf p' :=
    fun p' => queueOf_setQueue T p p' rest
  have hholds : ∀ p' t', (T.setQueue p rest).hold p' t' = T.hold p' t' := fun _ _ => rfl
  cases f with
  | answer g v =>
    refine ⟨h.reserved, h.unique, h.nodup, h.filled, fun p' g' => ?_, fun p' t' => ?_⟩
    · change ((T.setQueue p rest).queueOf p' |>.filter _).length + _ ≤ 1
      rw [hqueue]
      split_ifs with hp
      · rw [hp]
        exact hans g'
      · exact h.answers p' g'
    · change ((T.setQueue p rest).queueOf p' |>.filter _).length = (frameWaits (T.hold p' t')).toNat
      rw [hqueue]
      by_cases hp : p' = p
      · rw [if_pos hp, hp]
        exact hfirst h t' rfl
      · rw [if_neg hp]
        exact h.broken p' t'
  | broken t r =>
    have hone := h.broken p t
    rw [hq, List.filter_cons_of_pos (by simp [brokenFrameOf]), List.length_cons] at hone
    have hwait : frameWaits (T.hold p t) = true := by
      by_contra hn
      rw [Bool.not_eq_true] at hn
      rw [hn] at hone
      cases hone
    obtain ⟨r', hr'⟩ : ∃ r', T.hold p t = .broken r' true := by
      cases hb : T.hold p t with
      | broken r' w => exact ⟨r', by rw [hb] at hwait; exact congrArg _ hwait⟩
      | _ => rw [hb] at hwait; cases hwait
    have hsent : frameSent (T.setQueue p rest) p (.broken t r) =
        (T.setQueue p rest).setHold p t (.broken r' false) := by
      unfold frameSent
      simp only [hholds, hr']
    have hh : ∀ p' t', ((T.setQueue p rest).setHold p t (.broken r' false)).hold p' t' =
        if p' = p ∧ t' = t then .broken r' false else T.hold p' t' := fun p' t' => hold_setHold _ p p' t t' _
    rw [hsent]
    refine ⟨fun p' t' => ?_, h.unique, h.nodup, fun p' t' => ?_, fun p' g' => ?_, fun p' t' => ?_⟩
    · rw [← h.reserved, hh]
      split_ifs with he
      · simp [he.1, he.2, hr']
      · rfl
    · change (p', t') ∈ T.fillOrder ↔ _
      rw [hh, h.filled]
      split_ifs with he
      · simp [he.1, he.2, hr', isHeld]
      · rfl
    · change ((T.setQueue p rest).queueOf p' |>.filter _).length + _ ≤ 1
      rw [hqueue]
      split_ifs with hp
      · rw [hp]
        exact hans g'
      · exact h.answers p' g'
    · change ((T.setQueue p rest).queueOf p' |>.filter _).length = _
      rw [hqueue, hh]
      by_cases hp : p' = p
      · subst hp
        by_cases ht : t' = t
        · subst ht
          rw [if_pos rfl, if_pos ⟨rfl, rfl⟩]
          rw [hwait] at hone
          exact Nat.succ.inj hone
        · rw [if_pos rfl, if_neg fun e => ht e.2]
          exact hfirst h t' (by simp [brokenFrameOf, Ne.symm ht])
      · rw [if_neg hp, if_neg fun e => hp e.1]
        exact h.broken p' t'

end Linked

end State

end Sys2Proof.Machine
end

section
/-! SUPPORT. The laws of reservations, of the fill order and of the outbound queues in every claim, and the length of
a queue under them. -/

namespace Sys2Proof.Machine

/-! ## Claims on the tables -/

namespace Tables

/-- The pins and the writer of an allowed HOLD, and its entry (R40). -/
def heldAndPinned (T : Tables) (p : PortId) (t : Token) (x : CheckSlot) : Tables :=
  let h := State.heldOf T p x
  let T2 := (T.setHold p t (.held h)).pinUp h.index
  let T3 := if h.resolved = h.index then T2 else T2.pinUp h.resolved
  if x.request.access = .write ∧ (State.dataBodyOf x).map Body.sharing = some .sole then
    T3.setWriter h.resolved (some p)
  else T3

theorem fillHold_eq (T : Tables) (p : PortId) (t : Token) (x : CheckSlot) : State.fillHold T p t x =
    { T.heldAndPinned p t x with fillOrder := (T.heldAndPinned p t x).fillOrder ++ [(p, t)] } := rfl

theorem sameHolds_heldAndPinned (T : Tables) (p : PortId) (t : Token) (x : CheckSlot) :
    SameHolds (T.setHold p t (.held (State.heldOf T p x))) (T.heldAndPinned p t x) := by
  have c := sameHolds_closed (T.setHold p t (.held (State.heldOf T p x)))
  have h2 := c.pinUp (State.heldOf T p x).index (SameHolds.refl _)
  unfold heldAndPinned
  dsimp only
  split_ifs
  · exact c.setWriter _ _ h2
  · exact c.setWriter _ _ (c.pinUp _ h2)
  · exact h2
  · exact c.pinUp _ h2

theorem fillHold_hold (T : Tables) (p p' : PortId) (t t' : Token) (x : CheckSlot) :
    (State.fillHold T p t x).hold p' t' =
      if p' = p ∧ t' = t then .held (State.heldOf T p x) else T.hold p' t' := by
  exact ((T.sameHolds_heldAndPinned p t x).hold p' t').trans (hold_setHold _ _ _ _ _ _)

theorem fillHold_queueOf (T : Tables) (p p' : PortId) (t : Token) (x : CheckSlot) :
    (State.fillHold T p t x).queueOf p' = T.queueOf p' := by
  exact (T.sameHolds_heldAndPinned p t x).queueOf p'

theorem fillHold_fillOrder (T : Tables) (p : PortId) (t : Token) (x : CheckSlot) :
    (State.fillHold T p t x).fillOrder = T.fillOrder ++ [(p, t)] := by
  exact congrArg (· ++ [(p, t)]) (T.sameHolds_heldAndPinned p t x).fillOrder

end Tables

namespace State

namespace Linked

open Tables

variable {k : PortId → Tag → Option (CheckKind × Option Token)} {T : Tables}

/-- Fields that no hold, no queue and no fill order belongs to. -/
theorem miscClosed : MiscClosed (Linked k) where
  setPort _ _ h := h.of_same (fun _ _ => rfl) rfl fun _ => rfl
  setQuota _ _ h _ := h.of_same (fun _ _ => rfl) rfl fun _ => rfl
  setPortNotice _ _ h _ := h.of_same (fun _ _ => rfl) rfl fun _ => rfl
  raiseClosed _ h := h.of_same (fun _ _ => rfl) rfl fun _ => rfl
  raiseLoss _ h := h.of_same (fun _ _ => rfl) rfl fun _ => rfl
  fetch x rest h _ := by
    have h1 : Linked k { ‹Tables› with notices := rest } := h.of_same (fun _ _ => rfl) rfl fun _ => rfl
    cases x with
    | record i =>
      unfold clearSubject
      dsimp only
      rw [modEntry_rest]
      split
      · exact h1.of_same (fun _ _ => rfl) rfl fun _ => rfl
      · exact h1.of_same (fun _ _ => rfl) rfl fun _ => rfl
    | port p => exact h1.of_same (fun _ _ => rfl) rfl fun _ => rfl
    | domain d => exact h1.of_same (fun _ _ => rfl) rfl fun _ => rfl
    | bank b => exact h1.of_same (fun _ _ => rfl) rfl fun _ => rfl
  drop h := h.of_same (fun _ _ => rfl) rfl fun _ => rfl
  wipe i g h := by
    unfold dropNotice
    rw [setEntry_rest]
    exact h.of_same (fun _ _ => rfl) rfl fun _ => rfl
  walked h := h.of_same (fun _ _ => rfl) rfl fun _ => rfl

theorem claimClosed : ClaimClosed (Linked k) where
  toBreakClosed := breakClosed
  toMiscClosed := miscClosed
  setDomain _ _ h := h.of_same (fun _ _ => rfl) rfl fun _ => rfl

/-- The entries of a port with an empty tag table are emptied (R72). -/
theorem resetEntry (h : Linked k T) (p : PortId) (t : Token) (hp : ∀ g, k p g = none) :
    Linked k (resetEntry p T t) := by
  unfold Tables.resetEntry
  split
  · rename_i y hy
    exact breakClosed.testRecords none y (h.unpin p t y hy)
  · rename_i r w hw
    exact h.emptied p t r w hw
  · rename_i hr
    obtain ⟨g, c, hg⟩ := (h.reserved p t).mp hr
    rw [hp g] at hg
    cases hg
  · exact h

theorem completeReset (h : Linked k T) (p : PortId) (hp : ∀ g, k p g = none) :
    Linked k (T.completeReset p) := by
  have hfold : ∀ (l : List Token) (T : Tables), Linked k T → Linked k (l.foldl (Tables.resetEntry p) T) := by
    intro l
    induction l with
    | nil => exact fun T h => h
    | cons t l ih => exact fun T h => ih _ (h.resetEntry p t hp)
  exact miscClosed.setPortNotice _ _ (miscClosed.setPort _ _ (hfold allTokens T h))
    (by simp [PortNotice.isEmpty])

theorem releaseEntry (h : Linked k T) (p : PortId) (t : Token) : Linked k (State.releaseEntry T p t) := by
  unfold State.releaseEntry
  split
  · rename_i y hy
    exact breakClosed.testRecords none y (h.unpin p t y hy)
  · rename_i r w hw
    exact h.emptied p t r w hw
  · exact h
  · exact h

/-- A RELEASE places no frame but its answer. -/
theorem queueOf_releaseEntry (T : Tables) (p : PortId) (t : Token) (f : OutFrame)
    (hf : f ∈ (State.releaseEntry T p t).queueOf p) : f ∈ T.queueOf p := by
  unfold State.releaseEntry at hf
  split at hf
  · rwa [((sameHolds_closed _).testRecords none _ (SameHolds.refl _)).queueOf, unpin_queueOf] at hf
  · have hq : ((T.withdraw p t).setHold p t .empty).queueOf p =
        (T.queueOf p).filter fun f => !brokenFrameOf t f := (T.queueOf_withdraw p p t).trans (if_pos rfl)
    rw [hq] at hf
    exact List.mem_of_mem_filter hf
  · exact hf
  · exact hf

/-- The verdict's claim on the hold table, the answer placed where the port is not RESETTING (R40, R41). -/
theorem settled {s : State} {p : PortId} {g : Tag} {x : CheckSlot} (h : Linked k s.tables)
    (hk : k p g = some (x.request.kind, x.token)) : Linked (withSlot k p g none) (s.settled p g x) := by
  have hreturn : Linked (withSlot k p g none) (returnEntry s.tables p x) := by
    refine h.settle p g x.request.kind x.token hk .empty (Or.inl rfl) (fun p' t' => ?_) ?_ fun p' => ?_
    · unfold returnEntry
      cases x.token with
      | none => simp
      | some t =>
        rw [hold_setHold]
        simp [eq_comm]
    · unfold returnEntry
      cases x.token <;> simp [isHeld]
    · unfold returnEntry
      cases x.token <;> rfl
  have hfill : ∀ t, x.token = some t → Linked (withSlot k p g none) (fillHold s.tables p t x) := by
    intro t ht
    refine h.settle p g x.request.kind x.token hk (.held (heldOf s.tables p x)) (Or.inr ⟨_, rfl⟩)
      (fun p' t' => ?_) ?_ fun p' => fillHold_queueOf ..
    · rw [fillHold_hold, ht]
      simp [eq_comm]
    · rw [fillHold_fillOrder, ht]
      rfl
  have hsettle : ∀ r, Linked (withSlot k p g none) (settleEntry s.tables p x r) ∧
      (settleEntry s.tables p x r).queueOf p = s.tables.queueOf p := by
    intro r
    unfold settleEntry
    split
    · rename_i t ht
      exact ⟨hfill t ht, fillHold_queueOf ..⟩
    · refine ⟨hreturn, ?_⟩
      unfold returnEntry
      split <;> rfl
  unfold State.settled
  split_ifs
  · exact hreturn
  · obtain ⟨hs, hq⟩ := hsettle (s.decisionReason p x)
    refine hs.placed p g _ (by simp [withSlot]) ?_
    rw [hq]
    exact h.no_answer p g _ hk

end Linked

/-! ## What the claims leave of the reservations -/

theorem reservations_setSlot (s : State) (p p' : PortId) (g g' : Tag) (x : Option CheckSlot) :
    (s.setSlot p g x).reservations p' g' =
      Linked.withSlot s.reservations p g (x.map fun x => (x.request.kind, x.token)) p' g' := by
  unfold reservations Linked.withSlot
  rw [slot_setSlot]
  split_ifs <;> rfl

theorem reservations_setSlotPhase (s : State) (p p' : PortId) (g g' : Tag) (f : SlotPhase) :
    (s.setSlotPhase p g f).reservations p' g' = s.reservations p' g' := by
  unfold setSlotPhase
  split
  · rename_i x hx
    rw [reservations_setSlot]
    unfold Linked.withSlot
    split_ifs with h
    · rw [h.1, h.2]
      simp [reservations, hx]
    · rfl
  · rfl

theorem reservations_of_slots {s t : State} (h : t.slots = s.slots) (p : PortId) (g : Tag) :
    t.reservations p g = s.reservations p g := by
  unfold reservations slot
  rw [h]

theorem reservations_askSlot (s : State) (p p' : PortId) (g g' : Tag) (job : Job) :
    (s.askSlot p g job).reservations p' g' = s.reservations p' g' := by
  unfold askSlot
  dsimp only
  split
  · rw [reservations_of_slots (s := s.setSlotPhase p g .reading) (by rw [joinQueue_rest]),
      reservations_setSlotPhase]
  · exact reservations_setSlotPhase s p p' g g' .admitting

theorem reservations_grant (s : State) (b : BankId) (p : PortId) (g : Tag) :
    (s.grant b).reservations p g = s.reservations p g := by
  unfold grant
  dsimp only
  split
  · rfl
  · split
    · unfold grantSlot
      dsimp only
      split
      · rfl
      · exact reservations_setSlotPhase _ _ _ _ _ _
    · rfl

theorem reservations_leaveHead (s : State) (b : BankId) (p : PortId) (g : Tag) :
    (s.leaveHead b).reservations p g = s.reservations p g :=
  reservations_grant _ b p g

theorem reservations_choicePoint (s : State) (b : BankId) (p : PortId) (g : Tag) :
    (s.choicePoint b).reservations p g = s.reservations p g :=
  reservations_of_slots (by rw [choicePoint_rest]) p g

/-! ## The laws in each claim -/

/-- The laws of holds and links, in one state. -/
def LinkOk (s : State) : Prop := Linked s.reservations s.tables

namespace LinkOk

open Tables

variable {s t : State}

theorem of_same (h : s.LinkOk) (ht : t.tables = s.tables)
    (hk : ∀ p g, t.reservations p g = s.reservations p g) : t.LinkOk := by
  unfold LinkOk
  rw [ht]
  exact h.of_reservations hk

theorem of_tables (hk : t.slots = s.slots) (h : Linked s.reservations t.tables) : t.LinkOk :=
  h.of_reservations (reservations_of_slots hk)

theorem choicePoint (h : s.LinkOk) (b : BankId) : (s.choicePoint b).LinkOk :=
  h.of_same (choicePoint_tables s b) (reservations_choicePoint s b)

theorem leaveHead (h : s.LinkOk) (b : BankId) : (s.leaveHead b).LinkOk :=
  h.of_same (by rw [leaveHead_rest]) (reservations_leaveHead s b)

theorem grant (h : s.LinkOk) (b : BankId) : (s.grant b).LinkOk :=
  h.of_same (by rw [grant_rest]) (reservations_grant s b)

theorem answer (h : s.LinkOk) (st : AnswerStatus) (content : List Byte) : (s.answer st content).LinkOk :=
  h.of_same (by rw [answer_rest]) fun p g => by rw [answer_rest]; rfl

theorem askSlot (h : s.LinkOk) (p : PortId) (g : Tag) (job : Job) : (s.askSlot p g job).LinkOk :=
  h.of_same (by rw [askSlot_rest]) fun _ _ => reservations_askSlot ..

theorem askEngine (h : s.LinkOk) (job : Job) : (s.askEngine job).LinkOk :=
  h.of_same (by rw [askEngine_rest]) fun p g => by rw [askEngine_rest]; rfl

theorem decay (h : s.LinkOk) (i : Index) (u : Option StoredBody) : (s.decay i u).LinkOk :=
  h.of_same (by rw [decay_rest]) fun p g => by rw [decay_rest]; rfl

theorem writeCell (h : s.LinkOk) (i : Index) (c : Cell) : (s.writeCell i c).LinkOk :=
  h.of_same (by rw [writeCell_rest]) fun p g => by rw [writeCell_rest]; rfl

theorem completeIfLast (h : s.LinkOk) (p : PortId) : (s.completeIfLast p).LinkOk := by
  unfold State.completeIfLast
  split
  · rename_i hlast
    have hnone : ∀ g, s.reservations p g = none := fun g => by
      simp [reservations, (noTags_iff s p).mp hlast.2 g]
    refine of_tables (s := s) (onTables_slots s _) ?_
    rw [onTables_tables]
    exact Linked.completeReset h p hnone
  · exact h

theorem accepted (h : s.LinkOk) (ha : Accepted s t) : t.LinkOk := by
  have c := Linked.claimClosed (k := s.reservations)
  cases ha with
  | answered => exact h.answer _ _
  | configured => exact LinkOk.answer (by exact h) _ _
  | bound p b => exact LinkOk.answer (by exact c.setPort p ⟨.active, some b⟩ h) _ _
  | unbound p => exact LinkOk.answer (by exact c.setPort p ⟨.unbound, none⟩ h) _ _
  | portReset p =>
    refine LinkOk.answer (LinkOk.completeIfLast ?_ p) _ _
    exact c.setPort p { s.tables.port p with state := .resetting } h
  | opened d q =>
    exact LinkOk.answer (by exact c.setDomain d { s.tables.domain d with state := .opened, quota := q } h) _ _
  | quotaSet d q =>
    exact LinkOk.answer (by exact c.setDomain d { s.tables.domain d with quota := q } h) _ _
  | closed d =>
    have hd := c.setDomain d { s.tables.domain d with state := .closing } h
    exact LinkOk.answer (by exact c.breakAll .domainClosed none _ hd) _ _
  | dataTaken d i rest => exact LinkOk.askEngine (by exact c.takeHead i rest d .dataKind none h) _
  | aliasTaken d i t rest => exact LinkOk.askEngine (by exact c.takeHead i rest d .aliasKind (some t) h) _
  | deadline i x => exact LinkOk.answer (by exact c.applyDeadline i x h) _ _
  | asked job => exact h.askEngine job
  | changed i x =>
    exact LinkOk.answer (by exact c.modEntry i (fun e => { e with state := x }) (fun _ => rfl) h) _ _
  | revoked i casc brk => exact LinkOk.answer (by exact c.retire casc brk i h) _ _
  | fetched x rest _ hx => exact LinkOk.answer (by exact c.fetch x rest h hx) _ _
  | tableReset => exact c.beginClearing h

theorem screen (h : s.LinkOk) (p : PortId) (g : Tag) (r : CheckRequest) (hout : s.outstanding p g = false) :
    (s.screen p g r).LinkOk := by
  obtain ⟨htag, hany⟩ := Bool.or_eq_false_iff.mp hout
  have hslot : s.reservations p g = none := by simpa [tagInTable, reservations] using htag
  have hqueue : ∀ f ∈ s.tables.queueOf p, answerOf g f = false := by simpa using hany
  unfold State.screen
  split
  · exact Linked.placed h p g _ hslot hqueue
  · have htok : ∀ t, (s.newSlot p r).token = some t → s.tables.hold p t = .empty := by
      intro t ht
      change reservedToken s.tables p r.kind = some t at ht
      unfold reservedToken at ht
      split at ht
      · cases ht
      · simpa using List.find?_some ht
    have hr := Linked.reserve h p g r.kind (s.newSlot p r).token hslot hqueue htok
    have hset : ((s.onTables fun T => reserve T p (s.newSlot p r).token).setSlot p g
        (some (s.newSlot p r))).LinkOk := hr.of_reservations fun p' g' => reservations_setSlot ..
    exact hset.askSlot p g _

theorem takeRelease (h : s.LinkOk) (p : PortId) (g : Tag) (n : BitVec 4) (hout : s.outstanding p g = false) :
    (s.takeRelease p g n).LinkOk := by
  obtain ⟨htag, hany⟩ := Bool.or_eq_false_iff.mp hout
  have hslot : s.reservations p g = none := by simpa [tagInTable, reservations] using htag
  have hqueue : ∀ f ∈ s.tables.queueOf p, answerOf g f = false := by simpa using hany
  unfold State.takeRelease LinkOk onTables
  dsimp only
  split
  · exact (Linked.releaseEntry h p _).placed p g _ hslot fun f hf =>
      hqueue f (Linked.queueOf_releaseEntry _ _ _ f hf)
  · exact Linked.placed h p g _ hslot hqueue

theorem takeFrame (h : s.LinkOk) (p : PortId) (l : List Byte) : (s.takeFrame p l).LinkOk := by
  rcases takeFrame_cases s p l with e | ⟨c, e⟩ | ⟨hout, ⟨r, e⟩ | e⟩ <;> rw [e]
  · exact h
  · exact Linked.claimClosed.fence p c h
  · exact h.screen p _ r hout
  · exact h.takeRelease p _ _ hout

theorem decideSlot (h : s.LinkOk) (p : PortId) (g : Tag) (x y : CheckSlot) (hx : s.slot p g = some x)
    (hy : SameCheck x y) : (s.decideSlot p g y).LinkOk := by
  have hk : s.reservations p g = some (y.request.kind, y.token) := by
    simp [reservations, hx, hy.request, hy.token]
  rw [decideSlot_eq]
  have hsettled := Linked.settled h hk
  have hdamaged : Linked _ (readDamage (s.settled p g y) y) := Linked.breakClosed.readDamage y hsettled
  refine completeIfLast ?_ p
  exact hdamaged.of_reservations fun p' g' => reservations_setSlot _ p p' g g' none

theorem slotTakes (h : s.LinkOk) (p : PortId) (g : Tag) (r : ReadResult) : (s.slotTakes p g r).LinkOk := by
  rcases slotTakes_cases s p g r with e | ⟨x, hx, ⟨y, hy, e⟩ | ⟨y, i, gen, hy, e⟩⟩ <;> rw [e]
  · exact h
  · exact h.decideSlot p g x y hx hy
  · have hset : (s.setSlot p g (some y)).LinkOk := h.of_same rfl fun p' g' => by
      rw [reservations_setSlot]
      unfold Linked.withSlot
      split_ifs with hpg
      · rw [hpg.1, hpg.2]
        simp [reservations, hx, hy.request, hy.token]
      · rfl
    exact hset.askSlot p g _

theorem engineClosed : EngineClosed LinkOk where
  result _ h := h
  extent _ h := h
  answer st content h := h.answer st content
  damage i g h := Linked.breakClosed.damageClaim i g h
  free i h _ := Linked.breakClosed.becomeFree none i h
  ask job h _ := h.askEngine job
  live i h _ := Linked.breakClosed.modEntry i (fun e => { e with state := .live }) (fun _ => rfl) h
  deadline i d h _ := Linked.breakClosed.enterQueue i d h

theorem issuerTakes (h : s.LinkOk) (i : Index) (g : Generation) (issuer : Issuer) (r : ReadResult) :
    (s.issuerTakes i g issuer r).LinkOk := by
  cases issuer with
  | engine => exact engineClosed.steps.engineTakesRead i g r h
  | slot p t => exact h.slotTakes p t r

theorem missedRefresh (h : s.LinkOk) (b : BankId) : (s.missedRefresh b).LinkOk := by
  unfold State.missedRefresh
  dsimp only
  split_ifs
  · exact h
  · have hlost : Linked s.reservations ((orderFrames s.tables ((pageIndices b (s.bank b).pointer).foldl
        lossClaim s.tables)).raiseLoss b) :=
      Linked.claimClosed.raiseLoss b (Linked.breakClosed.orderFrames _ (Linked.breakClosed.lossClaims _ h))
    rw [losePage_rest]
    exact of_tables (s := s) rfl hlost

theorem expireDue (h : s.LinkOk) : s.expireDue.LinkOk := by
  unfold State.expireDue expireHead
  split
  · split
    · split
      · exact Linked.breakClosed.expire _ h
      · exact Linked.breakClosed.leaveQueue _ h
    · exact h
  · exact h

theorem expiryPassSteps (n : Nat) (h : s.LinkOk) : (expiryPassSteps n s).LinkOk := by
  induction n generalizing s with
  | zero => exact h
  | succ n ih => exact ih h.expireDue

theorem sendHead (h : s.LinkOk) (p : PortId) : (s.sendHead p).LinkOk := by
  unfold State.sendHead
  split
  · exact h
  · rename_i f rest hq
    exact Linked.sent h p f rest hq

/-- The laws of the part after reset, when nothing is held, queued or occupied. -/
theorem heldInReset (n : Nat) (q : List Instr) : (State.heldInReset n q).LinkOk := by
  have hhold : ∀ p t, Tables.reset.hold p t = .empty := fun p t => by
    unfold Tables.hold Tables.reset
    simp
  have hslot : ∀ p g, (State.heldInReset n q).reservations p g = none := fun p g => by
    simp [reservations, slot, State.heldInReset]
  have hq : ∀ p, Tables.reset.queueOf p = [] := fun p => pick_replicate _ _
  refine ⟨fun p t => ?_, fun p g g' t c c' hc => ?_, List.nodup_nil, fun p t => ?_, fun p g => ?_, fun p t => ?_⟩
  · change Tables.reset.hold p t = .reserved ↔ _
    simp [hhold, hslot]
  · rw [hslot] at hc
    cases hc
  · change (p, t) ∈ [] ↔ isHeld (Tables.reset.hold p t) = true
    simp [hhold, isHeld]
  · change ((Tables.reset.queueOf p).filter _).length + _ ≤ 1
    simp [hq, hslot]
  · change ((Tables.reset.queueOf p).filter _).length = (frameWaits (Tables.reset.hold p t)).toNat
    simp [hq, hhold, frameWaits]

theorem claims (s : State) (h : s.LinkOk) : Claims LinkOk s where
  assertReset := heldInReset _ _
  releaseReset := by
    unfold releaseReset
    split <;> exact h
  endStartUp := by
    unfold endStartUp
    split
    · exact Linked.claimClosed.walked h
    · exact h
  receive p l := receive_keeps p (fun _ _ h => h) (fun _ l h => h.takeFrame p l) s l h
  startTransmission p := by
    unfold startTransmission
    split
    · exact h.sendHead p
    · exact h
  endTransmission p := by
    unfold endTransmission
    split
    · exact h
    · exact sendHead (s := s.setTransmitter p .idle) h p
  managementFrame l := managementFrame_keeps (Q := LinkOk) (fun _ _ _ _ _ _ _ h => h) (fun _ h => h)
    (fun _ _ h _ _ ha => h.accepted ha) s l h
  startService b := by
    unfold startService
    dsimp only
    split
    · exact h.choicePoint b
    · exact h
  completeRead b u := by
    unfold completeRead
    dsimp only
    split
    · exact (((h.decay _ u).leaveHead b).issuerTakes _ _ _ _).choicePoint b
    · exact h
  completeWrite b := by
    unfold completeWrite
    dsimp only
    split
    · exact (engineClosed.steps.engineTakesWrite _ _ ((h.writeCell _ _).leaveHead b)).choicePoint b
    · exact h
  endReadHalf b u := by
    unfold endReadHalf
    dsimp only
    split
    · rename_i i g c force rest _ _ _
      split
      · exact (engineClosed.steps.amendRefused _ _ _ _ ((h.decay _ u).leaveHead b)).choicePoint b
      · have hd := h.decay i u
        have hw : ((s.decay i u).onTables fun T => amendTables T i c
            (amendedBody c ((s.decay i u).readBody i).body)).LinkOk := Linked.breakClosed.amendTables i c _ hd
        exact hw.writeCell i _
    · exact h
  completeAmend b := by
    unfold completeAmend
    dsimp only
    split
    · exact ((h.leaveHead b).answer _ _).choicePoint b
    · exact h
  admitWaiting b := by
    unfold admitWaiting
    dsimp only
    split
    · split
      · exact (h.grant b).choicePoint b
      · exact h.grant b
    · exact h
  refreshTick b := by
    unfold refreshTick takeRefreshTick
    dsimp only
    split_ifs
    · exact h
    · exact choicePoint (s := s.setBank b _) h b
    · exact h
    · exact h.missedRefresh b
  startRefresh b := by
    unfold startRefresh
    dsimp only
    split
    · exact h.choicePoint b
    · exact h
  finishRefresh b := by
    unfold finishRefresh
    split
    · exact choicePoint (s := s.setBank b _) h b
    all_goals exact h
  retentionLoss b := by
    unfold retentionLoss
    dsimp only
    split
    · exact h.missedRefresh b
    · exact h
  epochTick := by
    unfold epochTick
    split
    · exact expiryPassSteps (s := s.advanceEpoch) _ h
    · exact h
  expireDue := h.expireDue
  holdTimerExpiry p t := Linked.breakClosed.breakHold .timeout none (p, t) h
  sweepVisit := by
    unfold sweepVisit
    split
    · exact h
    · rename_i w _
      have hr := Linked.claimClosed.sweepRecord w.domain w.cursor h
      dsimp only
      split
      · exact Linked.claimClosed.sweepEnd w.domain hr
      · exact hr
  clearingWalkVisit := by
    unfold clearingWalkVisit
    split
    · exact h
    · rename_i i _
      have hc : (s.onTables fun T => clearEntry T i).LinkOk := Linked.claimClosed.clearEntry i h
      dsimp only
      split
      · exact answer (s := { s.onTables fun T => clearEntry T i with clearWalk := none, partState := .ready }) hc _ _
      · exact hc
  completeIfLast p := h.completeIfLast p
  testDraining i := Linked.breakClosed.testDraining none i h

end LinkOk

/-! ## The length of a queue -/

/-- One more for one item of a list. -/
theorem sum_map_ite_eq {α : Type} [DecidableEq α] (a : α) (n : α → Nat) (l : List α) :
    (l.map fun b => if a = b then n b + 1 else n b).sum = (l.map n).sum + l.count a := by
  induction l with
  | nil => rfl
  | cons b l ih =>
    simp only [List.map_cons, List.sum_cons, List.count_cons, ih, beq_iff_eq, eq_comm (a := b)]
    split_ifs <;> omega

/-- A frame is the ANSWER of a tag or the BROKEN frame of a token. -/
theorem queue_length_eq (l : List OutFrame) :
    l.length = (allTags.map fun g => (l.filter (answerOf g)).length).sum +
      (allTokens.map fun t => (l.filter (Tables.brokenFrameOf t)).length).sum := by
  have htags : ∀ g, allTags.count g = 1 := by decide
  have htokens : ∀ t, allTokens.count t = 1 := by decide
  induction l with
  | nil => rfl
  | cons f l ih =>
    cases f with
    | answer g v =>
      have := sum_map_ite_eq g (fun g => (l.filter (answerOf g)).length) allTags
      simp only [List.filter_cons, answerOf, Tables.brokenFrameOf, beq_iff_eq, apply_ite List.length,
        List.length_cons, this, htags, Bool.false_eq_true, if_false]
      omega
    | broken t r =>
      have := sum_map_ite_eq t (fun t => (l.filter (Tables.brokenFrameOf t)).length) allTokens
      simp only [List.filter_cons, answerOf, Tables.brokenFrameOf, beq_iff_eq, apply_ite List.length,
        List.length_cons, this, htokens, Bool.false_eq_true, if_false]
      omega

theorem sum_map_le_length {α : Type} (l : List α) (n : α → Nat) (hn : ∀ a, n a ≤ 1) :
    (l.map n).sum ≤ l.length := by
  induction l with
  | nil => exact Nat.le_refl 0
  | cons a l ih =>
    have := hn a
    simp only [List.map_cons, List.sum_cons, List.length_cons]
    omega

/-- Settles O55: every claim keeps the laws of holds and links together; under them a queue holds an ANSWER at most
for each of the 16 tags and a BROKEN frame at most for each of the 8 tokens. -/
theorem linkLawKept : Obligations.LinkLawKept := by
  refine ⟨fun s t hs hstep => ?_, fun s p hs => ?_⟩
  · exact (linkLaw_iff t).mpr (step_keeps (Q := LinkOk) (fun _ _ h => h) (fun _ h => h) LinkOk.claims
      ((linkLaw_iff s).mp hs) hstep)
  · have h := (linkLaw_iff s).mp hs
    rw [queue_length_eq]
    have ha := sum_map_le_length allTags (fun g => ((s.tables.queueOf p).filter (answerOf g)).length)
      fun g => (Nat.le_add_right _ _).trans (h.answers p g)
    have hb := sum_map_le_length allTokens
      (fun t => ((s.tables.queueOf p).filter (Tables.brokenFrameOf t)).length)
      fun t => (h.broken p t).le.trans (Bool.toNat_le _)
    exact Nat.add_le_add ha hb

end State

end Sys2Proof.Machine
end

section
/-! SUPPORT. Every step keeps the law of the part state, that of the domains' states and that of the Management
Engine. -/

namespace Sys2Proof.Machine.State

/-! ## The part state (R180, R181, R185, R186) -/

theorem PartLaw.of_same {s t : State} (h : s.PartLaw) (hp : t.partState = s.partState)
    (hs : t.startWalk = s.startWalk) (hr : t.resetAsserted = s.resetAsserted)
    (hc : t.clearWalk = s.clearWalk) : t.PartLaw := by
  unfold PartLaw at h ⊢
  rw [hp, hs, hr, hc]
  exact h

theorem partLaw_accepted {s t : State} (h : s.PartLaw) (hstart : s.partState ≠ .starting)
    (ha : Accepted s t) : t.PartLaw := by
  have hanswer : ∀ (u : State) (st : AnswerStatus) (content : List Byte), u.PartLaw →
      (u.answer st content).PartLaw := fun u st content hu => by
    rw [answer_rest]
    exact hu
  have hask : ∀ (u : State) (job : Job), u.PartLaw → (u.askEngine job).PartLaw := fun u job hu => by
    rw [askEngine_rest]
    exact hu
  cases ha with
  | portReset p =>
    refine hanswer _ _ _ ?_
    rw [beginPortReset, completeIfLast_rest]
    exact h
  | dataTaken => exact hask _ _ h
  | aliasTaken => exact hask _ _ h
  | asked job => exact hask _ _ h
  | tableReset =>
    obtain ⟨h1, -, h3, -⟩ := h
    have hnot := fun hw => hstart (h1.mpr hw)
    refine ⟨⟨fun e => (nomatch e), fun hw => absurd hw hnot⟩, ⟨fun _ => rfl, fun _ => rfl⟩, h3, fun i hi => ?_⟩
    cases hi
    decide
  | _ => exact hanswer _ _ _ h

theorem partLaw_takeFrame {s : State} (h : s.PartLaw) (p : PortId) (l : List Byte) :
    (s.takeFrame p l).PartLaw := by
  rcases takeFrame_cases s p l with e | ⟨c, e⟩ | ⟨_, ⟨r, e⟩ | e⟩ <;> rw [e]
  · exact h
  · exact h
  · unfold screen
    split
    · exact h
    · dsimp only
      rw [askSlot_rest]
      exact h
  · exact h

theorem partLaw_engineClosed : EngineClosed PartLaw where
  result _ h := h
  extent _ h := h
  answer _ _ h := by
    rw [answer_rest]
    exact h
  damage _ _ h := h
  free _ h _ := h
  ask _ h _ := by
    rw [askEngine_rest]
    exact h
  live _ h _ := h
  deadline _ _ h _ := h

theorem partLaw_issuerTakes {s : State} (h : s.PartLaw) (i : Index) (g : Generation) (issuer : Issuer)
    (r : ReadResult) : (s.issuerTakes i g issuer r).PartLaw := by
  cases issuer with
  | engine => exact partLaw_engineClosed.steps.engineTakesRead i g r h
  | slot p t =>
    change (s.slotTakes p t r).PartLaw
    rcases slotTakes_cases s p t r with e | ⟨x, _, ⟨y, _, e⟩ | ⟨y, i, g, _, e⟩⟩ <;> rw [e]
    · exact h
    · rw [decideSlot_rest]
      exact h
    · rw [askSlot_rest]
      exact h

theorem partLaw_choicePoint {s : State} (h : s.PartLaw) (b : BankId) : (s.choicePoint b).PartLaw := by
  rw [choicePoint_rest]
  exact h

theorem partLaw_missedRefresh {s : State} (h : s.PartLaw) (b : BankId) : (s.missedRefresh b).PartLaw := by
  unfold missedRefresh
  dsimp only
  split_ifs
  · exact h
  · rw [losePage_rest]
    exact h.of_same rfl rfl rfl rfl

theorem partLaw_claims (s : State) (h : s.PartLaw) : Claims PartLaw s where
  assertReset := ⟨⟨fun _ => Or.inr rfl, fun _ => rfl⟩, ⟨fun e => (nomatch e), fun e => (nomatch e)⟩,
    fun e => (nomatch e), fun i e => (nomatch e)⟩
  releaseReset := by
    unfold releaseReset
    split
    · rename_i hr
      obtain ⟨h1, h2, -, h4⟩ := h
      exact ⟨⟨fun _ => Or.inl rfl, fun _ => h1.mpr (Or.inr hr)⟩, h2, fun _ => rfl, h4⟩
    · exact h
  endStartUp := by
    unfold endStartUp
    split
    · rename_i hw
      obtain ⟨h1, h2, h3, h4⟩ := h
      have hstart : s.partState = .starting := h1.mpr (Or.inl hw)
      have hwalk : s.clearWalk.isSome ≠ true := fun e => by
        have := h2.mpr e
        rw [hstart] at this
        cases this
      refine ⟨⟨fun e => (nomatch e), fun e => ?_⟩, ⟨fun e => (nomatch e), fun e => absurd e hwalk⟩,
        fun e => (nomatch e), h4⟩
      rcases e with e | e
      · cases e
      · rw [h3 hw] at e
        cases e
    · exact h
  receive p l := receive_keeps (P := PartLaw) p (fun _ _ h => h) (fun _ l h => partLaw_takeFrame h p l) s l h
  startTransmission p := by
    rw [startTransmission_rest]
    exact h
  endTransmission p := by
    rw [endTransmission_rest]
    exact h
  managementFrame l := managementFrame_keeps (Q := PartLaw) (fun _ _ _ _ _ _ _ h => h) (fun _ h => h)
    (fun _ _ h hstart _ ha => partLaw_accepted h hstart ha) s l h
  startService b := by
    unfold startService
    dsimp only
    split
    · exact partLaw_choicePoint h b
    · exact h
  completeRead b u := by
    unfold completeRead
    dsimp only
    split
    · refine partLaw_choicePoint (partLaw_issuerTakes ?_ _ _ _ _) b
      rw [leaveHead_rest, decay_rest]
      exact h
    · exact h
  completeWrite b := by
    unfold completeWrite
    dsimp only
    split
    · refine partLaw_choicePoint (partLaw_engineClosed.steps.engineTakesWrite _ _ ?_) b
      rw [leaveHead_rest, writeCell_rest]
      exact h
    · exact h
  endReadHalf b u := by
    unfold endReadHalf
    dsimp only
    split
    · split
      · refine partLaw_choicePoint (partLaw_engineClosed.steps.amendRefused _ _ _ _ ?_) b
        rw [leaveHead_rest, decay_rest]
        exact h
      · unfold enterWriteHalf amendWritten
        dsimp only
        rw [writeCell_rest, decay_rest]
        exact h
    · exact h
  completeAmend b := by
    unfold completeAmend
    dsimp only
    split
    · refine partLaw_choicePoint ?_ b
      rw [answer_rest, leaveHead_rest]
      exact h
    · exact h
  admitWaiting b := by
    unfold admitWaiting
    dsimp only
    split
    · split
      · refine partLaw_choicePoint ?_ b
        rw [grant_rest]
        exact h
      · rw [grant_rest]
        exact h
    · exact h
  refreshTick b := by
    unfold refreshTick takeRefreshTick
    dsimp only
    split_ifs
    · exact h
    · exact partLaw_choicePoint (s := s.setBank b _) h b
    · exact h
    · exact partLaw_missedRefresh h b
  startRefresh b := by
    unfold startRefresh
    dsimp only
    split
    · exact partLaw_choicePoint h b
    · exact h
  finishRefresh b := by
    unfold finishRefresh
    split
    · exact partLaw_choicePoint (s := s.setBank b _) h b
    all_goals exact h
  retentionLoss b := by
    unfold retentionLoss
    dsimp only
    split
    · exact partLaw_missedRefresh h b
    · exact h
  epochTick := by
    unfold epochTick
    split
    · dsimp only
      rw [expiryPassSteps_rest]
      exact h
    · exact h
  expireDue := by
    rw [expireDue_rest]
    exact h
  holdTimerExpiry _ _ := h
  sweepVisit := by
    rw [sweepVisit_rest]
    exact h
  clearingWalkVisit := by
    unfold clearingWalkVisit
    split
    · exact h
    · rename_i i hi
      obtain ⟨h1, h2, h3, h4⟩ := h
      have hclear : s.partState = .clearing := h2.mpr (by rw [hi]; rfl)
      have hnot : ¬ (s.startWalk = true ∨ s.resetAsserted = true) := fun e => by
        have := h1.mpr e
        rw [hclear] at this
        cases this
      dsimp only
      split
      · rw [answer_rest]
        exact ⟨⟨fun e => (nomatch e), fun e => absurd e hnot⟩, ⟨fun e => (nomatch e), fun e => (nomatch e)⟩, h3,
          fun i e => (nomatch e)⟩
      · rename_i hlast
        refine ⟨h1, ⟨fun _ => rfl, fun _ => hclear⟩, h3, fun j hj => ?_⟩
        cases hj
        intro h0
        exact hlast (by
          have : i = (i + 1) - 1 := by simp
          rw [this, h0]
          decide)
  completeIfLast p := by
    rw [completeIfLast_rest]
    exact h
  testDraining _ := h

/-! ## The domains' states (R121, R126, R128) -/

/-- The domains are in the states given. -/
def DomainsAre (f : DomainId → DomainState) (T : Tables) : Prop := ∀ d, (T.domain d).state = f d

theorem domainsAre_of_domains {f : DomainId → DomainState} {T T' : Tables} (h : DomainsAre f T)
    (hd : T'.domains = T.domains) : DomainsAre f T' := fun d => by
  unfold Tables.domain
  rw [hd]
  exact h d

theorem domainsAre_setDomain {f : DomainId → DomainState} {T : Tables} (h : DomainsAre f T) (d : DomainId)
    (e : DomainEntry) (he : e.state = (T.domain d).state) : DomainsAre f (T.setDomain d e) := fun d' => by
  rw [Tables.domain_setDomain]
  split
  · rename_i hd
    rw [he, hd]
    exact h d
  · exact h d'

theorem domainsAre_holdClosed (f : DomainId → DomainState) : Tables.HoldClosed (DomainsAre f) where
  setEntry i e h _ := domainsAre_of_domains h (by rw [Tables.setEntry_rest])
  raiseRecord i r h := by
    refine domainsAre_of_domains h ?_
    simp only [Tables.raiseRecord]
    split_ifs
    · rfl
    · rw [Tables.setEntry_rest]
    · rw [Tables.setEntry_rest]
  count d _ h := domainsAre_setDomain h d _ rfl
  freeList _ h := h
  expiryQueue _ h := h
  setHold _ _ _ h := h
  fillOrder _ h := h
  outbound _ h := h

theorem domainsAre_walkClosed (f : DomainId → DomainState) : Tables.WalkClosed (DomainsAre f) where
  toBreakClosed := (domainsAre_holdClosed f).breaks
  setPort _ _ h := h
  setQuota d e h he := domainsAre_setDomain h d e he
  setPortNotice _ _ h _ := h
  raiseClosed _ h := h
  raiseLoss _ h := h
  fetch x rest h _ := by
    cases x with
    | record i =>
      unfold clearSubject
      dsimp only
      rw [Tables.modEntry_rest]
      split <;> exact h
    | _ => exact h
  drop h := h
  wipe i g h := by
    unfold dropNotice
    rw [Tables.setEntry_rest]
    exact h
  walked h := h

/-- The law of the domains' states, of a table of states and a sweep. -/
def DomainsOk (f : DomainId → DomainState) (w : Option Sweep) : Prop :=
  f commonDomain = .opened ∧ (∀ d, f d = .closing ↔ w.map Sweep.domain = some d) ∧
    ∀ v, w = some v → v.cursor ≠ 0

/-- The states of the domains. -/
def domainStates (T : Tables) : DomainId → DomainState := fun d => (T.domain d).state

theorem domainLaw_of {s : State} {f : DomainId → DomainState} (h : DomainsAre f s.tables)
    (hf : DomainsOk f s.sweep) : s.DomainLaw := by
  obtain ⟨h1, h2, h3⟩ := hf
  exact ⟨(h _).trans h1, fun d => by rw [h d, h2 d], h3⟩

theorem DomainLaw.ok {s : State} (h : s.DomainLaw) : DomainsOk (domainStates s.tables) s.sweep := h

theorem domainsAre_self (T : Tables) : DomainsAre (domainStates T) T := fun _ => rfl

theorem DomainLaw.of_same {s t : State} (h : s.DomainLaw) (ht : DomainsAre (domainStates s.tables) t.tables)
    (hw : t.sweep = s.sweep) : t.DomainLaw := domainLaw_of ht (hw ▸ h.ok)

/-- One domain that is neither domain 15 nor CLOSING takes a state that is not CLOSING. -/
theorem DomainsOk.set {f : DomainId → DomainState} {w : Option Sweep} (h : DomainsOk f w) (d : DomainId)
    (x : DomainState) (hd : f d = .closed ∨ f d = .opened) (hx : x = .opened) :
    DomainsOk (fun d' => if d' = d then x else f d') w := by
  obtain ⟨h1, h2, h3⟩ := h
  refine ⟨?_, fun d' => ?_, h3⟩
  · beta_reduce
    split_ifs
    · exact hx
    · exact h1
  · beta_reduce
    split_ifs with hd'
    · rw [← h2 d', hd', hx]
      rcases hd with hd | hd <;> simp [hd]
    · exact h2 d'

theorem domainsAre_set {f : DomainId → DomainState} {T : Tables} (h : DomainsAre f T) (d : DomainId)
    (e : DomainEntry) : DomainsAre (fun d' => if d' = d then e.state else f d') (T.setDomain d e) := fun d' => by
  rw [Tables.domain_setDomain]
  beta_reduce
  split_ifs
  · rfl
  · exact h d'

/-- The beginning claim of TABLE_RESET closes every domain but domain 15 (R185 step 5). -/
theorem domainsAre_beginClearing (T : Tables) :
    DomainsAre (fun d => if d = commonDomain then (T.domain d).state else .closed) (beginClearing T) := by
  have hdrop : ∀ (l : List Nat) (T : Tables), (l.foldl (fun T k =>
      T.modEntry (Fin.ofNat 4096 k) fun e => { e with deadline := none }) T).domains = T.domains := by
    intro l
    induction l with
    | nil => exact fun T => rfl
    | cons k l ih => 
      intro T
      refine (ih _).trans ?_
      beta_reduce
      rw [Tables.modEntry_rest]
  have hclose : ∀ (l : List DomainId) (T : Tables) d, ((l.foldl (fun T d =>
      T.setDomain d ⟨.closed, (T.domain d).count, (T.domain d).count⟩) T).domain d).state =
      if d ∈ l then .closed else (T.domain d).state := by
    intro l
    induction l with
    | nil => exact fun T d => rfl
    | cons c l ih =>
      intro T d
      rw [List.foldl_cons, ih, Tables.domain_setDomain]
      by_cases h1 : d ∈ l
      · simp [h1]
      · by_cases h2 : d = c <;> simp [h1, h2]
  intro d
  have hb := (domainsAre_holdClosed _).breaks.breakAll .tableReset none
    (T.heldWhere fun _ _ _ => true) (domainsAre_self T)
  have hmem : d ∈ ordinaryDomains ↔ d ≠ commonDomain := by
    revert d
    decide
  refine (hclose _ _ d).trans ?_
  beta_reduce
  by_cases hd : d = commonDomain
  · rw [if_neg (fun e => hmem.mp e hd), if_pos hd]
    refine Eq.trans ?_ (hb d)
    unfold Tables.domain
    exact congrArg (fun v => (pick v d).state) (hdrop _ _)
  · rw [if_pos (hmem.mpr hd), if_neg hd]

theorem domainLaw_accepted {s t : State} (h : s.DomainLaw) (ha : Accepted s t) : t.DomainLaw := by
  have c := domainsAre_walkClosed (domainStates s.tables)
  have hself := domainsAre_self s.tables
  have hanswer : ∀ (u : State) (st : AnswerStatus) (content : List Byte), u.DomainLaw →
      (u.answer st content).DomainLaw := fun u st content hu => by
    rw [answer_rest]
    exact hu
  have hask : ∀ (u : State) (job : Job), u.DomainLaw → (u.askEngine job).DomainLaw := fun u job hu => by
    rw [askEngine_rest]
    exact hu
  cases ha with
  | answered => exact hanswer _ _ _ h
  | configured => exact hanswer _ _ _ h
  | bound => exact hanswer _ _ _ h
  | unbound => exact hanswer _ _ _ h
  | portReset p =>
    refine hanswer _ _ _ (h.of_same ?_ (by rw [beginPortReset, completeIfLast_rest]; rfl))
    unfold beginPortReset completeIfLast
    split
    · exact c.setPortNotice _ _ (c.setPort _ _ ((domainsAre_holdClosed _).resetEntries p allTokens
        (c.setPort _ _ hself))) (by simp [PortNotice.isEmpty])
    · exact c.setPort _ _ hself
  | opened d q _ hd =>
    exact hanswer _ _ _ (domainLaw_of (domainsAre_set hself d _)
      (h.ok.set d .opened (Or.inl hd) rfl))
  | quotaSet d q => exact hanswer _ _ _ (h.of_same (c.setQuota d _ hself rfl) rfl)
  | closed d _ hd hopen hsweep =>
    have hset := domainsAre_set hself d { s.tables.domain d with state := .closing }
    refine hanswer _ _ _ (domainLaw_of
      ((domainsAre_walkClosed _).breakAll .domainClosed none _ hset) ?_)
    obtain ⟨h1, h2, -⟩ := h.ok
    refine ⟨?_, fun d' => ?_, fun v hv => ?_⟩
    · beta_reduce
      rw [if_neg (Ne.symm hd)]
      exact h1
    · change _ ↔ some d = some d'
      beta_reduce
      by_cases hdd : d' = d
      · simp [hdd]
      · rw [if_neg hdd, h2 d', hsweep]
        simp [Ne.symm hdd]
    · cases hv
      exact one_ne_zero
  | dataTaken d i rest => exact hask _ _ (h.of_same (c.takeHead i rest d .dataKind none hself) rfl)
  | aliasTaken d i t rest => exact hask _ _ (h.of_same (c.takeHead i rest d .aliasKind (some t) hself) rfl)
  | deadline i x => exact hanswer _ _ _ (h.of_same (c.applyDeadline i x hself) rfl)
  | asked job => exact hask _ _ h
  | changed i x =>
    exact hanswer _ _ _ (h.of_same (c.modEntry i (fun e => { e with state := x }) (fun _ => rfl) hself) rfl)
  | revoked i casc brk => exact hanswer _ _ _ (h.of_same (c.retire casc brk i hself) rfl)
  | fetched x rest _ hx => exact hanswer _ _ _ (h.of_same (c.fetch x rest hself hx) rfl)
  | tableReset =>
    refine domainLaw_of (domainsAre_beginClearing s.tables) ⟨?_, fun d => ?_, fun v hv => (nomatch hv)⟩
    · beta_reduce
      rw [if_pos rfl]
      exact h.1
    · change _ ↔ none = some d
      beta_reduce
      split_ifs with hd
      · rw [hd, h.1]
        simp
      · simp

theorem domainLaw_completeIfLast {s : State} (h : s.DomainLaw) (p : PortId) :
    (s.completeIfLast p).DomainLaw := by
  have c := domainsAre_walkClosed (domainStates s.tables)
  refine h.of_same ?_ (by rw [completeIfLast_rest])
  unfold completeIfLast
  split
  · exact c.setPortNotice _ _ (c.setPort _ _ ((domainsAre_holdClosed _).resetEntries p allTokens
      (domainsAre_self s.tables))) (by simp [PortNotice.isEmpty])
  · exact domainsAre_self s.tables

theorem domainLaw_takeFrame {s : State} (h : s.DomainLaw) (p : PortId) (l : List Byte) :
    (s.takeFrame p l).DomainLaw := by
  have c := domainsAre_holdClosed (domainStates s.tables)
  rcases takeFrame_cases s p l with e | ⟨x, e⟩ | ⟨_, ⟨r, e⟩ | e⟩ <;> rw [e]
  · exact h
  · exact h.of_same ((domainsAre_walkClosed _).fence p x (domainsAre_self _)) rfl
  · unfold screen
    split
    · exact h
    · dsimp only
      rw [askSlot_rest]
      exact h.of_same (c.reserve p _ (domainsAre_self _)) rfl
  · unfold takeRelease
    refine h.of_same ?_ rfl
    rw [onTables_tables]
    split
    · exact c.releaseEntry p _ (domainsAre_self _)
    · exact domainsAre_self _

theorem domainLaw_engineClosed : EngineClosed DomainLaw where
  result _ h := h
  extent _ h := h
  answer _ _ h := by
    rw [answer_rest]
    exact h
  damage i g h := h.of_same ((domainsAre_walkClosed _).damageClaim i g (domainsAre_self _)) rfl
  free i h _ := h.of_same ((domainsAre_walkClosed _).becomeFree none i (domainsAre_self _)) rfl
  ask _ h _ := by
    rw [askEngine_rest]
    exact h
  live i h _ := h.of_same ((domainsAre_walkClosed _).modEntry i (fun e => { e with state := .live })
    (fun _ => rfl) (domainsAre_self _)) rfl
  deadline i d h _ := h.of_same ((domainsAre_walkClosed _).enterQueue i d (domainsAre_self _)) rfl

theorem domainLaw_issuerTakes {s : State} (h : s.DomainLaw) (i : Index) (g : Generation) (issuer : Issuer)
    (r : ReadResult) : (s.issuerTakes i g issuer r).DomainLaw := by
  have c := domainsAre_holdClosed (domainStates s.tables)
  cases issuer with
  | engine => exact domainLaw_engineClosed.steps.engineTakesRead i g r h
  | slot p t =>
    change (s.slotTakes p t r).DomainLaw
    rcases slotTakes_cases s p t r with e | ⟨x, _, ⟨y, _, e⟩ | ⟨y, i, g, _, e⟩⟩ <;> rw [e]
    · exact h
    · rw [decideSlot_eq]
      have hs : DomainsAre (domainStates s.tables) (s.settled p t y) := by
        unfold settled
        split_ifs
        · exact c.returnEntry p y (domainsAre_self _)
        · exact c.placeFrame _ _ (c.settleEntry p y _ (domainsAre_self _))
      have hd : (State.setSlot { s with tables := readDamage (s.settled p t y) y } p t none).DomainLaw :=
        h.of_same (c.breaks.readDamage y hs) rfl
      exact domainLaw_completeIfLast hd p
    · rw [askSlot_rest]
      exact h

theorem domainLaw_choicePoint {s : State} (h : s.DomainLaw) (b : BankId) : (s.choicePoint b).DomainLaw := by
  rw [choicePoint_rest]
  exact h

theorem domainLaw_missedRefresh {s : State} (h : s.DomainLaw) (b : BankId) :
    (s.missedRefresh b).DomainLaw := by
  have c := domainsAre_walkClosed (domainStates s.tables)
  have hlost := c.raiseLoss b (c.orderFrames s.tables
    (c.lossClaims (pageIndices b (s.bank b).pointer) (domainsAre_self s.tables)))
  unfold missedRefresh
  dsimp only
  split_ifs
  · exact h
  · rw [losePage_rest]
    exact h.of_same hlost rfl

theorem domainLaw_expireDue {s : State} (h : s.DomainLaw) : s.expireDue.DomainLaw := by
  have c := domainsAre_walkClosed (domainStates s.tables)
  refine h.of_same ?_ (by rw [expireDue_rest])
  unfold expireDue expireHead
  split
  · split
    · split
      · exact c.expire _ (domainsAre_self _)
      · exact c.leaveQueue _ (domainsAre_self _)
    · exact domainsAre_self _
  · exact domainsAre_self _

theorem domainLaw_expiryPassSteps (n : Nat) {s : State} (h : s.DomainLaw) :
    (expiryPassSteps n s).DomainLaw := by
  induction n generalizing s with
  | zero => exact h
  | succ n ih => exact ih (domainLaw_expireDue h)

theorem domainLaw_sendHead {s : State} (h : s.DomainLaw) (p : PortId) : (s.sendHead p).DomainLaw := by
  refine h.of_same ?_ (by rw [sendHead_rest])
  unfold sendHead
  split
  · exact domainsAre_self _
  · exact (domainsAre_holdClosed _).frameSent p _ (domainsAre_self _)

theorem domainLaw_sweepVisit {s : State} (h : s.DomainLaw) : s.sweepVisit.DomainLaw := by
  have c := domainsAre_walkClosed (domainStates s.tables)
  obtain ⟨h1, h2, h3⟩ := h.ok
  unfold sweepVisit
  split
  · exact h
  · rename_i w hw
    have hr := c.sweepRecord w.domain w.cursor (domainsAre_self s.tables)
    have hclosing : domainStates s.tables w.domain = .closing := (h2 w.domain).mpr (by rw [hw]; rfl)
    have hone : ∀ d, domainStates s.tables d = .closing ↔ w.domain = d := fun d => by
      rw [h2 d, hw]
      simp
    dsimp only
    split
    · refine domainLaw_of (domainsAre_set hr w.domain _) ⟨?_, fun d => ?_, fun v hv => (nomatch hv)⟩
      · beta_reduce
        rw [if_neg]
        · exact h1
        · intro e
          rw [← e, h1] at hclosing
          cases hclosing
      · change _ ↔ none = some d
        beta_reduce
        split_ifs with hd
        · simp
        · simp [hone d, Ne.symm hd]
    · rename_i hlast
      refine domainLaw_of hr ⟨h1, fun d => ?_, fun v hv => ?_⟩
      · rw [hone d]
        simp
      · cases hv
        intro h0
        exact hlast (by
          have : w.cursor = (w.cursor + 1) - 1 := by simp
          rw [this, show w.cursor + 1 = 0 from h0]
          decide)

theorem domainLaw_claims (s : State) (h : s.DomainLaw) : Claims DomainLaw s where
  assertReset := by
    refine domainLaw_of (f := domainStates Tables.reset) (domainsAre_self _) ⟨by decide, ?_, fun v hv => (nomatch hv)⟩
    change ∀ d, domainStates Tables.reset d = .closing ↔ none = some d
    decide
  releaseReset := by
    unfold releaseReset
    split <;> exact h
  endStartUp := by
    unfold endStartUp
    split <;> exact h
  receive p l := receive_keeps (P := DomainLaw) p (fun _ _ h => h) (fun _ l h => domainLaw_takeFrame h p l) s l h
  startTransmission p := by
    unfold startTransmission
    split
    · exact domainLaw_sendHead h p
    · exact h
  endTransmission p := by
    unfold endTransmission
    split
    · exact h
    · exact domainLaw_sendHead (s := s.setTransmitter p .idle) h p
  managementFrame l := managementFrame_keeps (Q := DomainLaw) (fun _ _ _ _ _ _ _ h => h) (fun _ h => h)
    (fun _ _ h _ _ ha => domainLaw_accepted h ha) s l h
  startService b := by
    unfold startService
    dsimp only
    split
    · exact domainLaw_choicePoint h b
    · exact h
  completeRead b u := by
    unfold completeRead
    dsimp only
    split
    · refine domainLaw_choicePoint (domainLaw_issuerTakes ?_ _ _ _ _) b
      rw [leaveHead_rest, decay_rest]
      exact h
    · exact h
  completeWrite b := by
    unfold completeWrite
    dsimp only
    split
    · refine domainLaw_choicePoint (domainLaw_engineClosed.steps.engineTakesWrite _ _ ?_) b
      rw [leaveHead_rest, writeCell_rest]
      exact h
    · exact h
  endReadHalf b u := by
    unfold endReadHalf
    dsimp only
    split
    · rename_i i g c force rest _ _ _
      split
      · refine domainLaw_choicePoint (domainLaw_engineClosed.steps.amendRefused _ _ _ _ ?_) b
        rw [leaveHead_rest, decay_rest]
        exact h
      · have hd : (s.decay i u).DomainLaw := by
          rw [decay_rest]
          exact h
        have ha : ((s.decay i u).onTables fun T => amendTables T i c
            (amendedBody c ((s.decay i u).readBody i).body)).DomainLaw :=
          hd.of_same ((domainsAre_walkClosed _).amendTables i c _ (domainsAre_self _)) rfl
        unfold enterWriteHalf amendWritten
        dsimp only
        rw [writeCell_rest]
        exact ha
    · exact h
  completeAmend b := by
    unfold completeAmend
    dsimp only
    split
    · refine domainLaw_choicePoint ?_ b
      rw [answer_rest, leaveHead_rest]
      exact h
    · exact h
  admitWaiting b := by
    unfold admitWaiting
    dsimp only
    split
    · split
      · refine domainLaw_choicePoint ?_ b
        rw [grant_rest]
        exact h
      · rw [grant_rest]
        exact h
    · exact h
  refreshTick b := by
    unfold refreshTick takeRefreshTick
    dsimp only
    split_ifs
    · exact h
    · exact domainLaw_choicePoint (s := s.setBank b _) h b
    · exact h
    · exact domainLaw_missedRefresh h b
  startRefresh b := by
    unfold startRefresh
    dsimp only
    split
    · exact domainLaw_choicePoint h b
    · exact h
  finishRefresh b := by
    unfold finishRefresh
    split
    · exact domainLaw_choicePoint (s := s.setBank b _) h b
    all_goals exact h
  retentionLoss b := by
    unfold retentionLoss
    dsimp only
    split
    · exact domainLaw_missedRefresh h b
    · exact h
  epochTick := by
    unfold epochTick
    split
    · exact domainLaw_expiryPassSteps (s := s.advanceEpoch) _ h
    · exact h
  expireDue := domainLaw_expireDue h
  holdTimerExpiry p t := h.of_same ((domainsAre_walkClosed _).breakHold .timeout none (p, t) (domainsAre_self _)) rfl
  sweepVisit := domainLaw_sweepVisit h
  clearingWalkVisit := by
    unfold clearingWalkVisit
    split
    · exact h
    · rename_i i _
      have hc := (domainsAre_walkClosed _).clearEntry i (domainsAre_self s.tables)
      dsimp only
      split
      · rw [answer_rest]
        exact h.of_same hc rfl
      · exact h.of_same hc rfl
  completeIfLast p := domainLaw_completeIfLast h p
  testDraining i := h.of_same ((domainsAre_walkClosed _).testDraining none i (domainsAre_self _)) rfl

end Sys2Proof.Machine.State
end

section
/-! SUPPORT. Every step keeps the law of the Management Engine: one job of it at most stands at the banks, and only
while its request is in progress. -/

namespace Sys2Proof.Machine.State

/-! ## The engine's jobs at a bank -/

theorem engineJobs_of_same {k k' : Bank} (hq : k'.queue = k.queue)
    (hw : k'.engineWaiting = k.engineWaiting) : engineJobs k' = engineJobs k := by
  unfold engineJobs
  rw [hq, hw]

theorem engineJobs_of_choiceMade {k t : Bank} (h : ChoiceMade k t) : engineJobs t = engineJobs k := by
  unfold ChoiceMade at h
  split at h
  · rw [h]
    rfl
  · split at h
    · obtain ⟨op, -, -, -, rfl⟩ := h
      rfl
    · split at h
      · rw [h]
        rfl
      · rw [h]
        rfl

theorem engineJobs_choicePoint (s : State) (b b' : BankId) :
    engineJobs ((s.choicePoint b).bank b') = engineJobs (s.bank b') := by
  by_cases hb : b' = b
  · subst hb
    exact engineJobs_of_choiceMade (choiceMade_choicePoint s b')
  · rw [(queue_choicePoint s b b').2 hb]

theorem engineJobs_append (k : Bank) (l : List Job) :
    engineJobs { k with queue := k.queue ++ l } = engineJobs k + (l.filter engineJob).length := by
  unfold engineJobs
  simp only [List.filter_append, List.length_append]
  omega

theorem engineJobs_joinQueue (s : State) (job : Job) (b : BankId) :
    engineJobs ((s.joinQueue job).bank b) =
      engineJobs (s.bank b) + if b = bankOf job.index then (engineJob job).toNat else 0 := by
  have happ : ([job].filter engineJob).length = (engineJob job).toNat := by
    cases h : engineJob job <;> simp [h]
  have hset : engineJobs ((s.setBank (bankOf job.index) { s.bank (bankOf job.index) with
      queue := (s.bank (bankOf job.index)).queue ++ [job] }).bank b) =
      engineJobs (s.bank b) + if b = bankOf job.index then (engineJob job).toNat else 0 := by
    rw [bank_setBank]
    split_ifs with hb
    · rw [engineJobs_append, happ, hb]
    · rfl
  unfold joinQueue
  dsimp only
  split
  · rw [engineJobs_choicePoint, hset]
  · exact hset

theorem engineJobs_askSlot (s : State) (p : PortId) (t : Tag) (job : Job) (hjob : engineJob job = false)
    (b : BankId) : engineJobs ((s.askSlot p t job).bank b) = engineJobs (s.bank b) := by
  have hphase : ∀ f, (s.setSlotPhase p t f).bank b = s.bank b := fun f => by
    rw [setSlotPhase_rest]
    rfl
  unfold askSlot
  dsimp only
  split
  · rw [engineJobs_joinQueue, hphase, hjob]
    simp
  · rw [bank_setBank]
    split_ifs with hb
    · rw [hb]
      rfl
    · rw [hphase]

theorem engineJobs_askEngine (s : State) (job : Job) (b : BankId) :
    engineJobs ((s.askEngine job).bank b) ≤ engineJobs (s.bank b) + if b = bankOf job.index then 1 else 0 := by
  unfold askEngine
  dsimp only
  split
  · rw [engineJobs_joinQueue]
    refine Nat.add_le_add_left ?_ _
    split_ifs
    · exact Bool.toNat_le _
    · exact Nat.le_refl _
  · rw [bank_setBank]
    split_ifs with hb
    · rw [hb]
      unfold engineJobs
      simp only [Option.isSome_some, if_true]
      exact Nat.add_le_add_right (Nat.le_add_right _ _) 1
    · exact Nat.le_refl _

/-- A grant moves the engine's waiting job into the queue, or a slot's. -/
theorem engineJobs_grant (s : State) (b b' : BankId) :
    engineJobs ((s.grant b).bank b') ≤ engineJobs (s.bank b') := by
  unfold grant
  dsimp only
  split
  · rename_i job hjob
    change engineJobs ((s.setBank b _).bank b') ≤ _
    rw [bank_setBank]
    split_ifs with hb
    · rw [hb]
      have hone : ([job].filter engineJob).length ≤ 1 := List.length_filter_le _ _
      unfold engineJobs
      simp only [List.filter_append, List.length_append, hjob, Option.isSome_some, if_true,
        Option.isSome_none, Bool.false_eq_true, if_false]
      omega
    · exact Nat.le_refl _
  · split
    · unfold grantSlot
      dsimp only
      split
      · exact Nat.le_refl _
      · rename_i p _ _ t rest _
        rw [setSlotPhase_rest]
        change engineJobs ((s.setBank b _).bank b') ≤ _
        rw [bank_setBank]
        split_ifs with hb
        · rw [hb]
          have hslot : ((s.slotJob p t).toList.filter engineJob).length = 0 := by
            unfold slotJob
            cases s.slot p t with
            | none => rfl
            | some x => cases hx : x.targetRead <;> simp [hx, engineJob]
          have := engineJobs_append (s.bank b) (s.slotJob p t).toList
          rw [hslot] at this
          exact this.le
        · exact Nat.le_refl _
    · exact Nat.le_refl _

theorem engineJobs_leaveHead (s : State) (b b' : BankId) (job : Job) (rest : List Job)
    (hq : (s.bank b).queue = job :: rest) :
    engineJobs ((s.leaveHead b).bank b') + (if b' = b then (engineJob job).toNat else 0) ≤
      engineJobs (s.bank b') := by
  have hg := engineJobs_grant (s.setBank b { s.bank b with queue := (s.bank b).queue.tail, writeHalf := false }) b b'
  refine (Nat.add_le_add_right hg _).trans ?_
  rw [bank_setBank]
  split_ifs with hb
  · rw [hb]
    unfold engineJobs
    simp only [hq, List.tail_cons, List.filter_cons]
    cases engineJob job <;> simp
  · exact Nat.le_refl _

theorem engineJobs_sameWork {k k' : Bank} (h : SameWork k k') : engineJobs k' = engineJobs k := by
  obtain ⟨o, -, rfl⟩ := h
  rfl

/-! ## The engine's jobs at all the banks -/

/-- How many jobs of the Management Engine stand at the banks. -/
def engineLoad (s : State) : Nat := (allBanks.map fun b => engineJobs (s.bank b)).sum

theorem sum_map_add_ite {α : Type} [DecidableEq α] (l : List α) (n : α → Nat) (a : α) (d : Nat) :
    (l.map fun b => n b + if b = a then d else 0).sum = (l.map n).sum + d * l.count a := by
  induction l with
  | nil => rfl
  | cons b l ih =>
    simp only [List.map_cons, List.sum_cons, ih, List.count_cons, beq_iff_eq]
    split_ifs <;> ring

theorem count_allBanks (b : BankId) : allBanks.count b = 1 := by
  revert b
  decide

theorem engineLoad_mono {s t : State} (h : ∀ b, engineJobs (t.bank b) ≤ engineJobs (s.bank b)) :
    t.engineLoad ≤ s.engineLoad := List.sum_le_sum fun b _ => h b

theorem engineLoad_askEngine (s : State) (job : Job) : (s.askEngine job).engineLoad ≤ s.engineLoad + 1 := by
  have h := List.sum_le_sum (l := allBanks) fun b _ => engineJobs_askEngine s job b
  rwa [sum_map_add_ite, count_allBanks, Nat.mul_one] at h

theorem engineLoad_leaveHead (s : State) (b : BankId) (job : Job) (rest : List Job)
    (hq : (s.bank b).queue = job :: rest) :
    (s.leaveHead b).engineLoad + (engineJob job).toNat ≤ s.engineLoad := by
  have h := List.sum_le_sum (l := allBanks) fun b' _ => engineJobs_leaveHead s b b' job rest hq
  rwa [sum_map_add_ite, count_allBanks, Nat.mul_one] at h

/-! ## The law beside what a claim leaves alone -/

/-- The claim brings no job of the engine, and leaves the interface, the part state and the request in progress. -/
structure SameEngine (s t : State) : Prop where
  load : t.engineLoad ≤ s.engineLoad
  iface : t.iface = s.iface
  partState : t.partState = s.partState
  request : t.engine.map Progress.request = s.engine.map Progress.request

namespace SameEngine

variable {s t u : State}

theorem trans (h1 : SameEngine s t) (h2 : SameEngine t u) : SameEngine s u :=
  ⟨h2.load.trans h1.load, h2.iface.trans h1.iface, h2.partState.trans h1.partState, h2.request.trans h1.request⟩

theorem of_banks (hb : t.banks = s.banks) (hi : t.iface = s.iface) (hp : t.partState = s.partState)
    (he : t.engine.map Progress.request = s.engine.map Progress.request) : SameEngine s t :=
  ⟨by unfold engineLoad bank; rw [hb], hi, hp, he⟩

theorem refl (s : State) : SameEngine s s := of_banks rfl rfl rfl rfl

theorem choicePoint (s : State) (b : BankId) : SameEngine s (s.choicePoint b) := by
  refine ⟨engineLoad_mono fun b' => (engineJobs_choicePoint s b b').le, ?_, ?_, ?_⟩
  all_goals rw [choicePoint_rest]

theorem setBank (s : State) (b : BankId) (k : Bank) (hq : k.queue = (s.bank b).queue)
    (hw : k.engineWaiting = (s.bank b).engineWaiting) : SameEngine s (s.setBank b k) := by
  refine ⟨engineLoad_mono fun b' => ?_, rfl, rfl, rfl⟩
  rw [bank_setBank]
  split_ifs with hb
  · rw [hb, engineJobs_of_same hq hw]
  · exact Nat.le_refl _

theorem decay (s : State) (i : Index) (v : Option StoredBody) : SameEngine s (s.decay i v) := by
  refine ⟨engineLoad_mono fun b => (engineJobs_sameWork (sameWork_decay s i v b)).le, ?_, ?_, ?_⟩
  all_goals rw [decay_rest]

theorem writeCell (s : State) (i : Index) (c : Cell) : SameEngine s (s.writeCell i c) := by
  refine ⟨engineLoad_mono fun b => (engineJobs_sameWork (sameWork_writeCell s i c b)).le, ?_, ?_, ?_⟩
  all_goals rw [writeCell_rest]

theorem askSlot (s : State) (p : PortId) (t : Tag) (job : Job) (hjob : engineJob job = false) :
    SameEngine s (s.askSlot p t job) := by
  refine ⟨engineLoad_mono fun b => (engineJobs_askSlot s p t job hjob b).le, ?_, ?_, ?_⟩
  all_goals rw [askSlot_rest]

theorem grant (s : State) (b : BankId) : SameEngine s (s.grant b) := by
  refine ⟨engineLoad_mono fun b' => engineJobs_grant s b b', ?_, ?_, ?_⟩
  · rw [grant_rest]
  · rw [grant_rest]
  · unfold State.grant
    dsimp only
    split
    · simp [setEnginePhase, Function.comp_def]
    · split
      · unfold grantSlot
        dsimp only
        split
        · rfl
        · rw [setSlotPhase_rest]
          rfl
      · rfl

theorem leaveHead (s : State) (b : BankId) (job : Job) (rest : List Job) (hq : (s.bank b).queue = job :: rest) :
    SameEngine s (s.leaveHead b) := by
  have hg := grant (s.setBank b { s.bank b with queue := (s.bank b).queue.tail, writeHalf := false }) b
  exact ⟨(Nat.le_add_right _ _).trans (engineLoad_leaveHead s b job rest hq), hg.iface, hg.partState, hg.request⟩

end SameEngine

theorem EngineLaw.of_same {s t : State} (h : s.EngineLaw) (hs : SameEngine s t) : t.EngineLaw := by
  obtain ⟨h1, h2⟩ := h
  refine ⟨?_, fun hc => ?_⟩
  · rw [hs.iface, hs.partState]
    exact hs.load.trans h1
  · obtain ⟨hi, e, he, hr⟩ := h2 (hs.partState ▸ hc)
    refine ⟨hs.iface.trans hi, ?_⟩
    have := hs.request
    rw [he] at this
    obtain ⟨e', he', hr'⟩ := Option.map_eq_some_iff.mp this
    exact ⟨e', he', hr'.trans hr⟩

/-- No job of the engine stands at a bank, and the part is not CLEARING. -/
theorem engineLaw_of_idle {s : State} (hload : s.engineLoad = 0) (hclear : s.partState ≠ .clearing) :
    s.EngineLaw := by
  refine ⟨?_, fun hc => absurd hc hclear⟩
  change s.engineLoad ≤ _
  rw [hload]
  exact Nat.zero_le _

/-- A request is in progress, and none of its jobs stands at a bank. -/
def EngineFree (s : State) : Prop := s.engineLoad = 0 ∧ s.iface = .working ∧ s.partState = .ready

theorem EngineFree.answer {s : State} (h : s.EngineFree) (st : AnswerStatus) (content : List Byte) :
    (s.answer st content).EngineLaw := by
  obtain ⟨hload, -, hready⟩ := h
  rw [answer_rest]
  exact engineLaw_of_idle hload (by rw [show State.partState _ = .ready from hready]; decide)

theorem EngineFree.ask {s : State} (h : s.EngineFree) (job : Job) : (s.askEngine job).EngineLaw := by
  obtain ⟨hload, hwork, hready⟩ := h
  have hle := engineLoad_askEngine s job
  rw [hload] at hle
  refine ⟨hle.trans ?_, fun hc => ?_⟩
  · rw [askEngine_rest]
    simp [hwork, hready]
  · rw [askEngine_rest] at hc
    rw [show State.partState _ = .ready from hready] at hc
    cases hc

/-- The completion of a job of the engine. -/
theorem engineFree_steps : EngineSteps EngineFree EngineLaw where
  done h := engineLaw_of_idle h.1 (by rw [h.2.2]; decide)
  result _ h := h
  extent _ h := h
  answer st content h := h.answer st content
  damage _ _ h := h
  damaged _ _ h := h
  free _ h _ := h
  ask job h _ := h.ask job
  live _ h _ := h
  deadline _ _ h _ := h

/-- When a job of the engine leaves the head, none is left at the banks. -/
theorem engineFree_leaveHead {s : State} (h : s.EngineLaw) (b : BankId) (job : Job) (rest : List Job)
    (hq : (s.bank b).queue = job :: rest) (hjob : engineJob job = true) : (s.leaveHead b).EngineFree := by
  have hle := engineLoad_leaveHead s b job rest hq
  have hs := SameEngine.leaveHead s b job rest hq
  rw [hjob] at hle
  have h1 : s.engineLoad ≤ if s.iface = .working ∧ s.partState = .ready then 1 else 0 := h.1
  split_ifs at h1 with hwork
  · exact ⟨by simp at hle; omega, hs.iface.trans hwork.1, hs.partState.trans hwork.2⟩
  · simp at hle
    omega

/-! ## The law in each claim -/

/-- A request handed over finds no job of the engine at the banks. -/
theorem engineLaw_accepted {s t : State} (h : s.EngineFree) (ha : Accepted s t) : t.EngineLaw := by
  cases ha with
  | portReset p =>
    refine EngineFree.answer ?_ _ _
    rw [beginPortReset, completeIfLast_rest]
    exact h
  | dataTaken => exact EngineFree.ask (by exact h) _
  | aliasTaken => exact EngineFree.ask (by exact h) _
  | asked job => exact h.ask job
  | tableReset e he hr =>
    obtain ⟨hload, hwork, -⟩ := h
    refine ⟨?_, fun _ => ⟨hwork, { e with phase := .walking }, ?_, hr⟩⟩
    · change s.engineLoad ≤ _
      rw [hload]
      exact Nat.zero_le _
    · simp [acceptTableReset, setEnginePhase, onTables, he]
  | _ => exact EngineFree.answer (by exact h) _ _

theorem engineLaw_managementFrame {s : State} (h : s.EngineLaw) (l : List Byte) :
    (s.managementFrame l).EngineLaw := by
  obtain ⟨h1, h2⟩ := h
  have hnone : s.iface ≠ .working → s.engineLoad = 0 ∧ s.partState ≠ .clearing := fun hi => by
    have h1 : s.engineLoad ≤ if s.iface = .working ∧ s.partState = .ready then 1 else 0 := h1
    exact ⟨by simpa [hi] using h1, fun hc => hi (h2 hc).1⟩
  rcases managementFrame_cases s l with ⟨out, flag, e⟩ | ⟨out, hi, _, e⟩ | ⟨hl, out, a, e⟩ | ⟨hl, out, b, r, e⟩
  · rw [e]
    exact ⟨h1, h2⟩
  · rw [e]
    obtain ⟨hload, hclear⟩ := hnone (by rw [hi]; decide)
    exact engineLaw_of_idle (s := { s with msdo := out, refused := false, answerBuffer := none, iface := .idle })
      hload hclear
  · rw [e]
    obtain ⟨hload, hclear⟩ := hnone (by rw [hl.2.2]; decide)
    exact engineLaw_of_idle
      (s := { s with msdo := out, refused := false, answerBuffer := some a, iface := .answerReady }) hload hclear
  · rw [e]
    obtain ⟨hload, hclear⟩ := hnone (by rw [hl.2.2]; decide)
    refine engineLaw_accepted ?_ (accepted_handOver r)
    refine ⟨hload, rfl, ?_⟩
    change s.partState = .ready
    have hstart := hl.2.1
    cases hp : s.partState with
    | ready => rfl
    | starting => exact absurd hp hstart
    | clearing => exact absurd hp hclear

theorem sameEngine_slotTakes (s : State) (p : PortId) (t : Tag) (r : ReadResult) :
    SameEngine s (s.slotTakes p t r) := by
  rcases slotTakes_cases s p t r with e | ⟨x, _, ⟨y, _, e⟩ | ⟨y, i, g, _, e⟩⟩ <;> rw [e]
  · exact SameEngine.refl s
  · rw [decideSlot_rest]
    exact SameEngine.of_banks rfl rfl rfl rfl
  · refine SameEngine.trans ?_ (SameEngine.askSlot _ p t (.bodyRead i g (.slot p t)) rfl)
    exact SameEngine.of_banks rfl rfl rfl rfl

theorem engineLaw_completeRead {s : State} (h : s.EngineLaw) (b : BankId) (u : Option StoredBody) :
    (s.completeRead b u).EngineLaw := by
  unfold completeRead
  dsimp only
  split
  · rename_i i g issuer rest _ hq
    have hd := SameEngine.decay s i u
    obtain ⟨o, -, ho⟩ := sameWork_decay s i u b
    have hq' : ((s.decay i u).bank b).queue = .bodyRead i g issuer :: rest := by
      rw [ho]
      exact hq
    refine EngineLaw.of_same ?_ (SameEngine.choicePoint _ b)
    cases issuer with
    | slot p t =>
      exact h.of_same ((hd.trans (SameEngine.leaveHead _ b _ rest hq')).trans (sameEngine_slotTakes _ p t _))
    | engine =>
      exact engineFree_steps.engineTakesRead i g _ (engineFree_leaveHead (h.of_same hd) b _ rest hq' rfl)
  · exact h

theorem engineLaw_completeWrite {s : State} (h : s.EngineLaw) (b : BankId) :
    (s.completeWrite b).EngineLaw := by
  unfold completeWrite
  dsimp only
  split
  · rename_i i g body rest _ hq
    obtain ⟨o, -, ho⟩ := sameWork_writeCell s i (.stored body.sealed) b
    refine EngineLaw.of_same ?_ (SameEngine.choicePoint _ b)
    refine engineFree_steps.engineTakesWrite i g (engineFree_leaveHead
      (h.of_same (SameEngine.writeCell s i _)) b (.bodyWrite i g body) rest ?_ rfl)
    rw [ho]
    exact hq
  · exact h

theorem engineLaw_endReadHalf {s : State} (h : s.EngineLaw) (b : BankId) (u : Option StoredBody) :
    (s.endReadHalf b u).EngineLaw := by
  unfold endReadHalf
  dsimp only
  split
  · rename_i i g c force rest _ _ hq
    have hd := h.of_same (SameEngine.decay s i u)
    obtain ⟨o, -, ho⟩ := sameWork_decay s i u b
    split
    · refine EngineLaw.of_same ?_ (SameEngine.choicePoint _ b)
      refine engineFree_steps.amendRefused i g _ _ (engineFree_leaveHead hd b (.amendJob i g c force) rest ?_ rfl)
      rw [ho]
      exact hq
    · unfold amendWritten enterWriteHalf
      dsimp only
      refine EngineLaw.of_same ?_ (SameEngine.setBank _ b _ rfl rfl)
      have ht : EngineLaw ((s.decay i u).onTables fun T => amendTables T i c
          (amendedBody c ((s.decay i u).readBody i).body)) := hd.of_same (SameEngine.of_banks rfl rfl rfl rfl)
      refine EngineLaw.of_same (ht.of_same (SameEngine.writeCell _ i _)) (SameEngine.of_banks rfl rfl rfl ?_)
      simp [setJobResult, Function.comp_def]
  · exact h

theorem engineLaw_completeAmend {s : State} (h : s.EngineLaw) (b : BankId) :
    (s.completeAmend b).EngineLaw := by
  unfold completeAmend
  dsimp only
  split
  · rename_i rest _ _ hq
    exact (((engineFree_leaveHead h b _ rest hq rfl).answer _ _)).of_same (SameEngine.choicePoint _ b)
  · exact h

theorem sameEngine_missedRefresh (s : State) (b : BankId) : SameEngine s (s.missedRefresh b) := by
  have h1 := SameEngine.setBank s b { s.bank b with pointer := (s.bank b).pointer + 1 } rfl rfl
  unfold missedRefresh
  dsimp only
  split_ifs
  · exact h1
  · refine h1.trans ?_
    rw [losePage_rest]
    exact SameEngine.of_banks rfl rfl rfl rfl

theorem sameEngine_takeFrame (s : State) (p : PortId) (l : List Byte) : SameEngine s (s.takeFrame p l) := by
  rcases takeFrame_cases s p l with e | ⟨c, e⟩ | ⟨_, ⟨r, e⟩ | e⟩ <;> rw [e]
  · exact SameEngine.refl s
  · exact SameEngine.of_banks rfl rfl rfl rfl
  · unfold screen
    split
    · exact SameEngine.of_banks rfl rfl rfl rfl
    · refine SameEngine.trans ?_ (SameEngine.askSlot _ p _ (.bodyRead _ _ (.slot p _)) rfl)
      exact SameEngine.of_banks rfl rfl rfl rfl
  · exact SameEngine.of_banks rfl rfl rfl rfl

theorem engineLaw_claims (s : State) (h : s.PartLaw ∧ s.EngineLaw) : Claims EngineLaw s where
  assertReset := by
    refine engineLaw_of_idle ?_ (fun e => (nomatch e))
    have hb : ∀ b, engineJobs (s.assertReset.bank b) = 0 := fun b => by
      rw [show s.assertReset.bank b = Bank.reset from pick_replicate _ _]
      rfl
    simp [engineLoad, hb]
  releaseReset := by
    unfold releaseReset
    split
    · exact h.2.of_same (SameEngine.of_banks rfl rfl rfl rfl)
    · exact h.2
  endStartUp := by
    unfold endStartUp
    split
    · rename_i hw
      have hstart : s.partState = .starting := h.1.1.mpr (Or.inl hw)
      have hload : s.engineLoad ≤ if s.iface = .working ∧ s.partState = .ready then 1 else 0 := h.2.1
      rw [hstart] at hload
      exact engineLaw_of_idle (show s.engineLoad = 0 by simpa using hload) (by simp)
    · exact h.2
  receive p l := receive_keeps (P := EngineLaw) p (fun _ _ h => h)
    (fun s l h => h.of_same (sameEngine_takeFrame s p l)) s l h.2
  startTransmission p := by
    rw [startTransmission_rest]
    exact h.2
  endTransmission p := by
    rw [endTransmission_rest]
    exact h.2
  managementFrame l := engineLaw_managementFrame h.2 l
  startService b := by
    unfold startService
    dsimp only
    split
    · exact h.2.of_same (SameEngine.choicePoint s b)
    · exact h.2
  completeRead b u := engineLaw_completeRead h.2 b u
  completeWrite b := engineLaw_completeWrite h.2 b
  endReadHalf b u := engineLaw_endReadHalf h.2 b u
  completeAmend b := engineLaw_completeAmend h.2 b
  admitWaiting b := by
    unfold admitWaiting
    dsimp only
    split
    · split
      · exact h.2.of_same ((SameEngine.grant s b).trans (SameEngine.choicePoint _ b))
      · exact h.2.of_same (SameEngine.grant s b)
    · exact h.2
  refreshTick b := by
    unfold refreshTick takeRefreshTick
    dsimp only
    split_ifs
    · exact h.2
    · exact EngineLaw.of_same (h.2.of_same (SameEngine.setBank s b
        { s.bank b with debt := (s.bank b).debt + 1 } rfl rfl)) (SameEngine.choicePoint _ b)
    · exact h.2.of_same (SameEngine.setBank s b _ rfl rfl)
    · exact h.2.of_same (sameEngine_missedRefresh s b)
  startRefresh b := by
    unfold startRefresh
    dsimp only
    split
    · exact h.2.of_same (SameEngine.choicePoint s b)
    · exact h.2
  finishRefresh b := by
    unfold finishRefresh
    split
    · exact EngineLaw.of_same (h.2.of_same (SameEngine.setBank s b { s.bank b with
        underRefresh := none, urgent := (s.bank b).urgent && decide ((s.bank b).debt ≠ 0) } rfl rfl))
        (SameEngine.choicePoint _ b)
    all_goals exact h.2
  retentionLoss b := by
    unfold retentionLoss
    dsimp only
    split
    · exact h.2.of_same (sameEngine_missedRefresh s b)
    · exact h.2
  epochTick := by
    unfold epochTick
    split
    · dsimp only
      rw [expiryPassSteps_rest]
      exact h.2
    · exact h.2
  expireDue := by
    rw [expireDue_rest]
    exact h.2
  holdTimerExpiry _ _ := h.2
  sweepVisit := by
    rw [sweepVisit_rest]
    exact h.2
  clearingWalkVisit := by
    unfold clearingWalkVisit
    split
    · exact h.2
    · rename_i i hi
      have hclear : s.partState = .clearing := h.1.2.1.mpr (by rw [hi]; rfl)
      have hload : s.engineLoad ≤ if s.iface = .working ∧ s.partState = .ready then 1 else 0 := h.2.1
      rw [hclear] at hload
      dsimp only
      split
      · rw [answer_rest]
        exact engineLaw_of_idle (show s.engineLoad = 0 by simpa using hload) (by simp)
      · exact h.2.of_same (SameEngine.of_banks rfl rfl rfl rfl)
  completeIfLast p := by
    rw [completeIfLast_rest]
    exact h.2
  testDraining _ := h.2

/-- Settles O56: the part state, the domains' states and the engine's jobs change in a few claims alone, and each of
them keeps its law. -/
theorem partAndDomainLawKept : Obligations.PartAndDomainLawKept :=
  ⟨fun _ _ h hstep => step_keeps (Q := PartLaw) (fun _ _ h => h) (fun _ h => h) partLaw_claims h hstep,
    fun _ _ _ h hstep => step_keeps (Q := DomainLaw) (fun _ _ h => h) (fun _ h => h) domainLaw_claims h hstep,
    fun _ _ hp he hstep => step_keeps (Q := fun s => s.PartLaw ∧ s.EngineLaw) (fun _ _ h => h) (fun _ h => h.2)
      engineLaw_claims ⟨hp, he⟩ hstep⟩

end Sys2Proof.Machine.State
end

section
/-! SUPPORT. The queue of commands, RESET_N and the start-up walk: what the part held in reset reads as, and that it
keeps every law (R21, R181). -/

namespace Sys2Proof.Machine

open State Tables

/-- Settles O1: `step` is defined by the front of the queue. -/
theorem stepTakesFront : Obligations.StepTakesFront :=
  ⟨fun _ _ _ => rfl, fun s h => by unfold step; rw [h]⟩

namespace Tables

variable {T : Tables}

/-- With no status entry listed, every record reads as R21 has it. -/
theorem entry_of_rst_nil (h : T.rst = []) (i : Index) : T.entry i = .freeAt 0 := by
  unfold entry
  rw [h]
  split <;> rfl

theorem mem_freeListAtReset (i : Index) : i ∈ allUsable ↔ i ≠ 0 := by
  have hne : i ≠ 0 ↔ i.val ≠ 0 := by rw [Ne, Fin.ext_iff]; rfl
  have hi := i.isLt
  simp only [allUsable, List.mem_map, List.mem_range, hne]
  constructor
  · rintro ⟨n, hn, rfl⟩
    simp only [Fin.ofNat]
    omega
  · exact fun h => ⟨i.val - 1, by omega, by ext; simp only [Fin.ofNat]; omega⟩

theorem nodup_freeListAtReset : allUsable.Nodup := by
  refine List.Nodup.map_on (fun a ha b hb h => ?_) List.nodup_range
  rw [List.mem_range] at ha hb
  simp only [Fin.ofNat, Fin.ext_iff] at h
  omega

theorem length_freeListAtReset : allUsable.length = 4095 := by simp [allUsable]

theorem getElem?_freeListAtReset (n : Nat) (h : n < 4095) :
    allUsable[n]? = some ⟨n + 1, Nat.succ_lt_succ h⟩ := by
  simp only [allUsable, List.getElem?_map, List.getElem?_range h, Option.map_some, Option.some.injEq]
  ext
  exact Nat.mod_eq_of_lt (by omega)

@[simp] theorem reset_entry (i : Index) : Tables.reset.entry i = .freeAt 0 := entry_of_rst_nil rfl i

@[simp] theorem reset_port (p : PortId) : Tables.reset.port p = ⟨.unbound, none⟩ := pick_replicate _ _

@[simp] theorem reset_hold (p : PortId) (k : Token) : Tables.reset.hold p k = .empty := by
  simp only [hold, Tables.reset, pick_replicate]

@[simp] theorem reset_queueOf (p : PortId) : Tables.reset.queueOf p = [] := pick_replicate _ _

theorem reset_domain (d : DomainId) :
    Tables.reset.domain d = if d = 15 then ⟨.opened, 4095, 0⟩ else ⟨.closed, 0, 0⟩ := by
  simp only [domain, Tables.reset, resetDomains, pick_place, pick_replicate]

theorem reset_owes (x : Subject) : owes Tables.reset x = false := by
  cases x with
  | record i => rw [owes, reset_entry]; rfl
  | port p => rw [owes, portNotice]; simp only [Tables.reset, pick_replicate]; rfl
  | domain d => exact pick_replicate _ _
  | bank b => exact pick_replicate _ _

@[simp] theorem reset_restingTokens (i : Index) (p : PortId) : restingTokens Tables.reset i p = [] := by
  simp [restingTokens]

end Tables

namespace State

section
variable (k : Nat) (q : List Instr)

@[simp] theorem heldInReset_bank (b : BankId) : (heldInReset k q).bank b = .reset := pick_replicate _ _

@[simp] theorem heldInReset_slot (p : PortId) (g : Tag) : (heldInReset k q).slot p g = none := by
  simp only [slot, heldInReset, pick_replicate]

end

/-- A body position of a part whose pages are closed and whose storage lists nothing. -/
theorem cellAt_heldInReset (k : Nat) (q : List Instr) (i : Index) :
    (heldInReset k q).cellAt i = .undefined k := by
  rw [cellAt_of_closed _ _ (by rw [heldInReset_bank]; rfl)]
  rfl

/-- Settles O2: the assertion leaves the part held in reset, whose blocks the lemmas above describe. -/
theorem resetAssertClears : Obligations.ResetAssertClears := by
  intro s
  refine ⟨heldInReset s.freeCount s.pending, rfl, rfl, rfl, reset_entry, reset_port, reset_domain, reset_hold, rfl,
    rfl, reset_owes, rfl, rfl, rfl, rfl, rfl, rfl, rfl, rfl, heldInReset_slot _ _, fun p => ?_, fun b => ?_,
    cellAt_heldInReset _ _, rfl, rfl, rfl, rfl, rfl, rfl⟩
  · exact ⟨pick_replicate _ _, pick_replicate _ _, reset_queueOf p, rfl⟩
  · rw [heldInReset_bank]
    exact ⟨rfl, rfl, rfl, rfl, fun p => pick_replicate _ _, rfl, rfl, rfl, rfl⟩

/-! ## While RESET_N is asserted -/

/-- The part held in reset, with what MSDO carried last. -/
def heldWithMsdo (k : Nat) (q : List Instr) (m : List Byte) : State := { heldInReset k q with msdo := m }

section
variable (k : Nat) (q : List Instr) (m : List Byte)

@[simp] theorem heldWithMsdo_bank (b : BankId) : (heldWithMsdo k q m).bank b = .reset := pick_replicate _ _

theorem receive_heldWithMsdo (p : PortId) (l : List Symbol) :
    (heldWithMsdo k q m).receive p l = heldWithMsdo k q m := rfl

theorem managementFrame_heldWithMsdo (l : List Byte) :
    (heldWithMsdo k q m).managementFrame l = heldWithMsdo k q [] := by
  cases l <;> rfl

theorem startTransmission_heldWithMsdo (p : PortId) :
    (heldWithMsdo k q m).startTransmission p = heldWithMsdo k q m := by
  have ht : pick (heldWithMsdo k q m).transmitters p = .idle := pick_replicate _ _
  have hq : (heldWithMsdo k q m).tables.queueOf p = [] := reset_queueOf p
  simp only [startTransmission, ht, sendHead, hq]

theorem endTransmission_heldWithMsdo (p : PortId) :
    (heldWithMsdo k q m).endTransmission p = heldWithMsdo k q m := by
  have ht : pick (heldWithMsdo k q m).transmitters p = .idle := pick_replicate _ _
  simp only [endTransmission, ht]

/-! No job is queued, no refresh is due and no claimant waits at a bank held in reset. -/

theorem startService_heldWithMsdo (b : BankId) :
    (heldWithMsdo k q m).startService b = heldWithMsdo k q m := by
  simp only [startService, heldWithMsdo_bank]
  rfl

theorem startRefresh_heldWithMsdo (b : BankId) :
    (heldWithMsdo k q m).startRefresh b = heldWithMsdo k q m := by
  simp only [startRefresh, heldWithMsdo_bank]
  rfl

theorem finishRefresh_heldWithMsdo (b : BankId) :
    (heldWithMsdo k q m).finishRefresh b = heldWithMsdo k q m := by
  simp only [finishRefresh, heldWithMsdo_bank]
  rfl

theorem completeRead_heldWithMsdo (b : BankId) (u : Option StoredBody) :
    (heldWithMsdo k q m).completeRead b u = heldWithMsdo k q m := by
  simp only [completeRead, heldWithMsdo_bank]
  rfl

theorem completeWrite_heldWithMsdo (b : BankId) :
    (heldWithMsdo k q m).completeWrite b = heldWithMsdo k q m := by
  simp only [completeWrite, heldWithMsdo_bank]
  rfl

theorem endReadHalf_heldWithMsdo (b : BankId) (u : Option StoredBody) :
    (heldWithMsdo k q m).endReadHalf b u = heldWithMsdo k q m := by
  simp only [endReadHalf, heldWithMsdo_bank]
  rfl

theorem completeAmend_heldWithMsdo (b : BankId) :
    (heldWithMsdo k q m).completeAmend b = heldWithMsdo k q m := by
  simp only [completeAmend, heldWithMsdo_bank]
  rfl

theorem admitWaiting_heldWithMsdo (b : BankId) :
    (heldWithMsdo k q m).admitWaiting b = heldWithMsdo k q m := by
  have hwaits : claimantWaits Bank.reset = false := by decide
  simp [admitWaiting, hwaits]

theorem holdTimerExpiry_heldWithMsdo (p : PortId) (t : Token) :
    (heldWithMsdo k q m).holdTimerExpiry p t = heldWithMsdo k q m := by
  have h : Tables.reset.breakHold .timeout none (p, t) = Tables.reset :=
    breakHold_not_held _ _ _ (p, t) fun h => by rw [reset_hold]; exact fun e => nomatch e
  exact congrArg (fun T => { heldWithMsdo k q m with tables := T }) h

theorem completeIfLast_heldWithMsdo (p : PortId) :
    (heldWithMsdo k q m).completeIfLast p = heldWithMsdo k q m := by
  have h : (heldWithMsdo k q m).tables.port p = ⟨.unbound, none⟩ := reset_port p
  simp [completeIfLast, h]

theorem testDraining_heldWithMsdo (i : Index) :
    ((heldWithMsdo k q m).onTables fun T => testDraining none T i) = heldWithMsdo k q m := by
  have h : testDraining none Tables.reset i = Tables.reset :=
    testDraining_of_not _ _ i (by rw [reset_entry]; rfl)
  exact congrArg (fun T => { heldWithMsdo k q m with tables := T }) h

end

/-- Settles O3: of the commands other than those of RESET_N, the management frames alone change anything, and of the
part only what MSDO carries. -/
theorem resetHeldStopsAll : Obligations.ResetHeldStopsAll := by
  intro c k q m hrelease hassert
  have same : ∀ {t : State}, t = heldWithMsdo k q m →
      ∃ m', (Host.Outcome.next t : Host.Outcome State Fault Refusal) = .next (heldWithMsdo k q m') :=
    fun h => ⟨m, by rw [h]⟩
  have frame : ∀ l, ∃ m', (Host.Outcome.next ((heldWithMsdo k q m).managementFrame l) :
      Host.Outcome State Fault Refusal) = .next (heldWithMsdo k q m') :=
    fun l => ⟨[], by rw [managementFrame_heldWithMsdo]⟩
  cases c with
  | resetNAssert => exact absurd rfl hassert
  | resetNRelease => exact absurd rfl hrelease
  | startUpWalkEnd | epochTick | recordExpiry | sweepVisit | clearingWalkVisit => exact ⟨m, rfl⟩
  | refreshTick b | retentionLoss b => exact ⟨m, rfl⟩
  | probe p f | hold p f | release p f | protocolFault p l => exact same (receive_heldWithMsdo k q m p _)
  | transmissionStart p => exact same (startTransmission_heldWithMsdo k q m p)
  | transmissionEnd p => exact same (endTransmission_heldWithMsdo k q m p)
  | jobServiceStart b => exact same (startService_heldWithMsdo k q m b)
  | refreshStart b => exact same (startRefresh_heldWithMsdo k q m b)
  | refreshEnd b => exact same (finishRefresh_heldWithMsdo k q m b)
  | bodyReadCompletion b u => exact same (completeRead_heldWithMsdo k q m b u)
  | bodyWriteCompletion b => exact same (completeWrite_heldWithMsdo k q m b)
  | amendReadHalfEnd b u => exact same (endReadHalf_heldWithMsdo k q m b u)
  | amendJobCompletion b => exact same (completeAmend_heldWithMsdo k q m b)
  | admissionGrant b => exact same (admitWaiting_heldWithMsdo k q m b)
  | holdTimerExpiry p t => exact same (holdTimerExpiry_heldWithMsdo k q m p t)
  | portResetCompletion p => exact same (completeIfLast_heldWithMsdo k q m p)
  | drainingCompletion i => exact same (testDraining_heldWithMsdo k q m i)
  | _ => exact frame _

/-! ## The start-up walk -/

theorem walkedTables_freeList (T : Tables) : (walkedTables T).freeList = allUsable := by simp only [walkedTables]

/-- Settles O4: the walk leaves no status entry listed, which reads as R21 has it. -/
theorem startUpRuns : Obligations.StartUpRuns := by
  refine ⟨fun s => ⟨fun h => ?_, fun h => ?_⟩, fun s h => ⟨s.endStartUp, rfl, ?_⟩⟩
  · show Host.Outcome.next s.releaseReset = _
    rw [releaseReset, if_pos h]
  · show Host.Outcome.next s.releaseReset = _
    rw [releaseReset, if_neg (by simp [h])]
  · rw [endStartUp, if_pos h]
    refine ⟨rfl, rfl, rfl, rfl, rfl, rfl, rfl, entry_of_rst_nil rfl, ?_, ?_, rfl, ?_⟩
    · rw [walkedTables_freeList]
      exact length_freeListAtReset
    · rw [walkedTables_freeList]
      exact getElem?_freeListAtReset
    · simp only [walkedTables, Config.defaultPeriod]

/-! ## The laws right after reset -/

theorem reset_tables : State.reset.tables = Tables.reset := rfl

theorem noticeLaw_reset : State.reset.NoticeLaw :=
  ⟨List.nodup_nil, fun x => by rw [reset_tables, reset_owes]; simp only [Bool.false_eq_true, iff_false]; exact List.not_mem_nil⟩

@[simp] theorem reset_bank (b : BankId) : State.reset.bank b = .reset := pick_replicate _ _

@[simp] theorem reset_slot (p : PortId) (g : Tag) : State.reset.slot p g = none := heldInReset_slot 0 [] p g

theorem linkLaw_reset : State.reset.LinkLaw := by
  refine ⟨⟨fun p t => ?_, fun p g g' x x' t h => ?_⟩, ⟨List.nodup_nil, fun p t => ?_⟩,
    fun p => ⟨fun g => ?_, fun t => ?_⟩⟩
  · simp [reset_tables]
  · simp at h
  · rw [reset_tables, reset_hold]
    simp [isHeld, Tables.reset]
  · simp [reset_tables, tagInTable]
  · simp [reset_tables, frameWaits]

theorem countLaw_of_free {T : Tables} (hcount : ∀ d, (T.domain d).count = 0) (hfree : ∀ i, (T.entry i).state = .free) :
    CountLaw T := by
  intro d
  rw [hcount]
  simp [indexCount, hfree]

theorem freeListLaw_reset : FreeListLaw Tables.reset := by
  have hlist : Tables.reset.freeList = allUsable := by simp only [Tables.reset]
  rw [FreeListLaw, hlist]
  refine ⟨nodup_freeListAtReset, fun i => ?_⟩
  rw [reset_entry]
  exact (mem_freeListAtReset i).trans ⟨fun h => ⟨h, rfl, rfl⟩, fun h => h.1⟩

theorem countLaw_reset : CountLaw Tables.reset :=
  countLaw_of_free (fun d => by rw [reset_domain]; split <;> rfl) fun i => by rw [reset_entry]; rfl

theorem expiryLaw_reset : ExpiryLaw Tables.reset := by
  refine ⟨fun d i => ?_, fun i h => ?_, List.nodup_nil, List.Pairwise.nil⟩
  · rw [reset_entry]
    exact ⟨fun h => (List.not_mem_nil h).elim, fun h => nomatch h⟩
  · rw [reset_entry] at h
    exact absurd rfl h

theorem recordLaws_reset : State.reset.RecordLaws where
  entries := fun i => by
    rw [reset_tables, reset_entry]
    simp [EntryFits, StatusEntry.freeAt, RecordReasons.empty]
  aliases := by
    rw [reset_tables]
    exact ⟨fun i a => by simp [StatusEntry.freeAt], fun i => by simp [StatusEntry.freeAt]⟩
  freeList := freeListLaw_reset
  counts := countLaw_reset
  expiry := expiryLaw_reset
  pins := fun i => by
    rw [reset_tables, reset_entry]
    simp [StatusEntry.freeAt]
  writers := fun i p h => by
    rw [reset_tables, reset_entry] at h
    cases h
  held := fun p t h hh => by
    rw [reset_tables, reset_hold] at hh
    cases hh
  draining := fun _ i h => by
    rw [reset_tables, reset_entry] at h
    cases h
  reserved := fun p g x h => by
    rw [reset_slot] at h
    cases h
  clearing := fun h => nomatch h
  cleared := fun c h => nomatch h
  starting := fun _ i => reset_entry i

/-- Settles O51. -/
theorem lawsAtReset : Obligations.LawsAtReset := by
  refine ⟨rfl, fun p => ?_, noticeLaw_reset, ⟨rfl, fun x h => (List.not_mem_nil h).elim, rfl, fun b op h => ?_⟩,
    pagesClean_of_closed _ fun b => by rw [reset_bank]; rfl, fun b => ?_, ⟨by decide, by decide, by decide, fun i h => nomatch h⟩,
    ⟨by rw [reset_tables, reset_domain]; rfl, fun d => ?_, fun w h => nomatch h⟩,
    ⟨?_, fun h => nomatch h⟩, linkLaw_reset, recordLaws_reset⟩
  · have ht : pick State.reset.transmitters p = .idle := pick_replicate _ _
    simp only [outwardLane, ht]
    rfl
  · rw [reset_bank] at h
    cases h
  · rw [reset_bank]
    simp [BankLaw, Bank.reset]
  · rw [reset_tables, reset_domain]
    constructor
    · split <;> exact fun h => nomatch h
    · exact fun h => nomatch h
  · simp [reset_bank, engineJobs, Bank.reset, allBanks]

end State

end Sys2Proof.Machine
end

section
/-! SUPPORT. The encoding tests of arguments (R188), and the requests that are refused or done in their acceptance
claim: CONFIGURE, BIND_PORT, UNBIND_PORT, and the tests of the establishes, AMEND, REVOKE, SUSPEND and RESUME. -/

namespace Sys2Proof.Machine

/-! ## Encoding tests of arguments (R188) -/

theorem flagOf_eq_none {b : Byte} (h : 1 < b.toNat) : flagOf b = none := by
  rw [flagOf, if_neg (by rintro rfl; simp at h), if_neg (by rintro rfl; simp at h)]

theorem flagOf_eq_some {b : Byte} (h : b.toNat ≤ 1) : flagOf b = some (decide (b = 1)) := by
  have hb : b = 0 ∨ b = 1 := by bv_omega
  rcases hb with rfl | rfl <;> rfl

theorem indexOf_eq_none {w : BitVec 16} (h : 4096 ≤ w.toNat) : indexOf w = none := dif_neg (by omega)

theorem indexOf_eq_some {w : BitVec 16} {i : Index} (h : w.toNat = i.val) : indexOf w = some i := by
  rw [indexOf, dif_pos (by omega)]
  exact congrArg some (Fin.ext h)

theorem toNat_of_indexOf {w : BitVec 16} {i : Index} (h : indexOf w = some i) : w.toNat = i.val := by
  unfold indexOf at h
  split at h
  · rw [← Option.some.inj h]
  · cases h

theorem clearanceOf_eq_none {b : Byte} (h : 8 ≤ b.toNat) : clearanceOf b = none := dif_neg (by omega)

theorem clearanceOf_eq_some {b : Byte} {c : Clearance} (h : b.toNat = c.val) : clearanceOf b = some c := by
  rw [clearanceOf, dif_pos (by omega)]
  exact congrArg some (Fin.ext h)

theorem clearanceOf_of_lt {b : Byte} (h : b.toNat ≤ 7) : clearanceOf b = some ⟨b.toNat, Nat.lt_succ_of_le h⟩ :=
  dif_pos (Nat.lt_succ_of_le h)

theorem rightsArg_eq_none {b : Byte} (h : b = 0 ∨ 3 < b.toNat) : rightsArg b = none := if_pos h

theorem rightsArg_eq_some {b : Byte} (h : b ≠ 0) (hle : b.toNat ≤ 3) : rightsArg b = some (rightsOf b) :=
  if_neg (not_or.mpr ⟨h, by omega⟩)

/-- A rights value that passes its test names READ or WRITE. -/
theorem rightsOf_nonempty {b : Byte} (h : b ≠ 0) (hle : b.toNat ≤ 3) :
    ((rightsOf b).read || (rightsOf b).write) = true := by
  have hb : b = 1 ∨ b = 2 ∨ b = 3 := by bv_omega
  rcases hb with rfl | rfl | rfl <;> rfl

theorem sharingArg_eq_none {b : Byte} (h : 1 < b.toNat) : sharingArg b = none := by
  rw [sharingArg, if_neg (by rintro rfl; simp at h), if_neg (by rintro rfl; simp at h)]

theorem sharingArg_of_le {b : Byte} (h : b.toNat ≤ 1) : ∃ x, sharingArg b = some x := by
  have hb : b = 0 ∨ b = 1 := by bv_omega
  rcases hb with rfl | rfl <;> exact ⟨_, rfl⟩

theorem deadlineArg_eq_none {b : Byte} {v : BitVec 48} (h : 1 < b.toNat ∨ (b = 0 ∧ v ≠ 0)) :
    deadlineArg b v = none := by
  have h1 : b ≠ 1 := by
    rintro rfl
    simp at h
  have h0 : ¬ (b = 0 ∧ v = 0) := by
    rintro ⟨rfl, rfl⟩
    simp at h
  rw [deadlineArg, if_neg h1, if_neg h0]

theorem deadlineArg_eq_some {b : Byte} {v : BitVec 48} (h : b.toNat ≤ 1) (hv : b = 0 → v = 0) :
    deadlineArg b v = some (if b = 1 then some v else none) := by
  have hb : b = 0 ∨ b = 1 := by bv_omega
  rcases hb with rfl | rfl
  · rw [hv rfl]
    rfl
  · rfl

theorem revokeFlags_eq_none {b : Byte} (h : 3 < b.toNat) : revokeFlags b = none := if_neg (by omega)

theorem revokeFlags_eq_some {b : Byte} (h : b.toNat ≤ 3) : revokeFlags b = some (b.getLsbD 0, b.getLsbD 1) :=
  if_pos h

/-- Two tests of one refusal are one test of it. -/
theorem ite_or_eq {α : Type} (p q : Prop) [Decidable p] [Decidable q] [Decidable (p ∨ q)] (x y : α) :
    (if p ∨ q then x else y) = if p then x else if q then x else y := by
  by_cases hp : p
  · rw [if_pos (Or.inl hp), if_pos hp]
  · by_cases hq : q
    · rw [if_pos (Or.inr hq), if_neg hp, if_pos hq]
    · rw [if_neg (fun h => h.elim hp hq), if_neg hp, if_neg hq]

/-! ## CONFIGURE (R184) -/

theorem exec_configure (s : State) (a : ConfigureArgs) (h : s.listening) :
    exec (.configure a) s = .next ((s.acceptance (.configure a)).acceptConfigure a) :=
  exec_command_of_listening s (.configure a) h

/-- Settles O15: the alert enable, then the period; ALERT_N is computed from what is set. -/
theorem configureSets : Obligations.ConfigureSets := by
  intro s a h
  rw [exec_configure s a h]
  refine ⟨fun hbad => ?_, fun hperiod henable => ⟨_, rfl, ?_, ?_⟩⟩
  · rcases Nat.lt_or_ge 1 a.alertEnable.toNat with hflag | hflag
    · rw [State.acceptConfigure, flagOf_eq_none hflag]
      rfl
    · have hperiod : a.period = 0 := hbad.resolve_right (by omega)
      rw [State.acceptConfigure, flagOf_eq_some hflag]
      simp only [if_pos hperiod, State.acceptance_refuse]
  · rw [State.acceptConfigure, flagOf_eq_some henable]
    simp only [if_neg hperiod]
    rfl
  · rw [State.acceptConfigure, flagOf_eq_some henable]
    simp only [if_neg hperiod]
    show (!s.tables.notices.isEmpty && decide (a.alertEnable = 1)) = true ↔ _
    simp [and_comm]

/-! ## BIND_PORT and UNBIND_PORT (R131 to R133) -/

theorem bindingOf_eq_none {a : BindPortArgs}
    (h : 16 ≤ a.domain.toNat ∨ 8 ≤ a.maxClearance.toNat ∨ a.holdLimit = 0) : State.bindingOf a = none := by
  unfold State.bindingOf
  split
  · next d c hd hc =>
    rcases h with h | h | h
    · rw [domainOf_eq_none h] at hd
      cases hd
    · rw [clearanceOf_eq_none h] at hc
      cases hc
    · rw [if_pos h]
  · rfl

theorem bindingOf_eq_some {a : BindPortArgs} {d : DomainId} {c : Clearance} (hd : a.domain.toNat = d.val)
    (hc : a.maxClearance.toNat = c.val) (hl : a.holdLimit ≠ 0) : State.bindingOf a = some ⟨d, c, a.holdLimit⟩ := by
  rw [State.bindingOf, domainOf_eq_some hd, clearanceOf_eq_some hc]
  exact if_neg hl

theorem exec_bindPort (s : State) (a : BindPortArgs) (h : s.listening) :
    exec (.bindPort a) s = .next ((s.acceptance (.bindPort a)).acceptBindPort a) :=
  exec_command_of_listening s (.bindPort a) h

theorem exec_unbindPort (s : State) (a : PortArgs) (h : s.listening) :
    exec (.unbindPort a) s = .next ((s.acceptance (.unbindPort a)).acceptUnbindPort a) :=
  exec_command_of_listening s (.unbindPort a) h

@[simp] theorem port_setPort_self (T : Tables) (p : PortId) (e : PortEntry) : (T.setPort p e).port p = e :=
  pick_place_self _ _ _

theorem noHolds_iff (T : Tables) (p : PortId) : State.noHolds T p = true ↔ ∀ k, T.hold p k = .empty := by
  have hall : ∀ k : Token, k ∈ Machine.allTokens := by decide
  simp only [State.noHolds, List.all_eq_true, decide_eq_true_eq]
  exact ⟨fun h k => h k (hall k), fun h k _ => h k⟩

/-- BIND_PORT of arguments in range: the tests of the port and of the domain, in order, and its claim. -/
theorem exec_bindPort_of_binding (s : State) (a : BindPortArgs) (p : PortId) (b : Binding) (h : s.listening)
    (hp : a.port.toNat = p.val) (hb : State.bindingOf a = some b) :
    exec (.bindPort a) s =
      .next (if (s.tables.port p).state ≠ .unbound then
          s.answered (.bindPort a) .portBusy (portEntryBytes p (s.tables.port p))
        else if (s.tables.domain b.domain).state ≠ .opened then
          s.answered (.bindPort a) .domainState (portEntryBytes p (s.tables.port p))
        else State.answered { s with tables := s.tables.setPort p ⟨.active, some b⟩ } (.bindPort a) .done
          (portEntryBytes p ⟨.active, some b⟩)) := by
  rw [exec_bindPort s a h, State.acceptBindPort, portOf_eq_some hp]
  simp [hb]

/-- UNBIND_PORT of a port number in range: the tests of the port, of its holds and of its tags, and its claim. -/
theorem exec_unbindPort_of_port (s : State) (a : PortArgs) (p : PortId) (h : s.listening)
    (hp : a.port.toNat = p.val) :
    exec (.unbindPort a) s =
      .next (if State.portIdle s.tables p = false then
          s.answered (.unbindPort a) .portBusy (portEntryBytes p (s.tables.port p))
        else if State.noHolds s.tables p = false ∨ s.noTags p = false then
          s.answered (.unbindPort a) .portBusy (portEntryBytes p (s.tables.port p))
        else State.answered { s with tables := s.tables.setPort p ⟨.unbound, none⟩ } (.unbindPort a) .done
          (portEntryBytes p ((s.tables.setPort p ⟨.unbound, none⟩).port p))) := by
  rw [exec_unbindPort s a h, State.acceptUnbindPort, portOf_eq_some hp]
  rfl

/-- Settles O17: the port number, the other arguments, then the tests on the port and the domain. -/
theorem bindAndUnbind : Obligations.BindAndUnbind := by
  refine ⟨fun s a h => ⟨fun hp => ?_, fun p hp => ⟨fun hbad => ?_, fun d c hd hc hl => ?_⟩⟩,
    fun s a h => ⟨fun hp => ?_, fun p hp => ⟨fun hbusy => ?_, fun hidle hholds hslots => ?_⟩⟩⟩
  · simp [exec_bindPort s a h, State.acceptBindPort, portOf_eq_none hp]
  · simp [exec_bindPort s a h, State.acceptBindPort, portOf_eq_some hp, bindingOf_eq_none hbad]
  · rw [exec_bindPort_of_binding s a p _ h hp (bindingOf_eq_some hd hc hl)]
    refine ⟨fun hport => ?_, fun hport hdomain => ?_, fun hport hdomain => ?_⟩
    · rw [if_pos hport]
    · rw [if_neg (not_not.mpr hport), if_pos hdomain]
    · rw [if_neg (not_not.mpr hport), if_neg (not_not.mpr hdomain)]
      rfl
  · simp [exec_unbindPort s a h, State.acceptUnbindPort, portOf_eq_none hp]
  · rw [exec_unbindPort_of_port s a p h hp]
    by_cases hidle : State.portIdle s.tables p = false
    · rw [if_pos hidle]
    · have hnot : ¬ ((s.tables.port p).state = .unbound ∨ (s.tables.port p).state = .resetting) :=
        mt (portIdle_eq_false_iff s.tables p).mpr hidle
      have hkept : State.noHolds s.tables p = false ∨ s.noTags p = false := by
        rw [← Bool.not_eq_true, ← Bool.not_eq_true, noHolds_iff, noTags_iff]
        push Not
        rcases hbusy with h | h | h | h
        · exact absurd (Or.inl h) hnot
        · exact absurd (Or.inr h) hnot
        · exact Or.inl h
        · exact Or.inr h
      rw [if_neg hidle, if_pos hkept]
  · have hkept : ¬ (State.noHolds s.tables p = false ∨ s.noTags p = false) := by
      rw [(noHolds_iff s.tables p).mpr hholds, (noTags_iff s p).mpr hslots]
      decide
    rw [exec_unbindPort_of_port s a p h hp, portIdle_of_active_or_fenced hidle, if_neg Bool.noConfusion,
      if_neg hkept, port_setPort_self]
    rfl

end Sys2Proof.Machine
end

section
/-! SUPPORT. The tests of the establishes, of AMEND and REVOKE, and SUSPEND and RESUME, in the order of the rules
(R76, R77, R79, R82, R87, R88). -/

namespace Sys2Proof.Machine

open State

/-! ## Establishes (R77, R79) -/

theorem establishDataOf_eq_none {a : EstablishDataArgs}
    (h : 16 ≤ a.domain.toNat ∨ a.rights = 0 ∨ 3 < a.rights.toNat ∨ 1 < a.sharing.toNat ∨ 7 < a.floor.toNat ∨
      1 < a.deadlinePresent.toNat ∨ (a.deadlinePresent = 0 ∧ a.deadline ≠ 0)) : establishDataOf a = none := by
  unfold establishDataOf
  split
  · next d r x f dl hd hr hx hf hdl =>
    rcases h with h | h | h | h | h | h
    · rw [domainOf_eq_none h] at hd
      cases hd
    · rw [rightsArg_eq_none (Or.inl h)] at hr
      cases hr
    · rw [rightsArg_eq_none (Or.inr h)] at hr
      cases hr
    · rw [sharingArg_eq_none h] at hx
      cases hx
    · rw [clearanceOf_eq_none h] at hf
      cases hf
    · rw [deadlineArg_eq_none h] at hdl
      cases hdl
  · rfl

theorem establishAliasOf_eq_none {a : EstablishAliasArgs}
    (h : 16 ≤ a.domain.toNat ∨ 4096 ≤ a.target.toNat ∨ a.rights = 0 ∨ 3 < a.rights.toNat ∨ 7 < a.floor.toNat ∨
      1 < a.deadlinePresent.toNat ∨ (a.deadlinePresent = 0 ∧ a.deadline ≠ 0)) : establishAliasOf a = none := by
  unfold establishAliasOf
  split
  · next d t r f dl hd ht hr hf hdl =>
    rcases h with h | h | h | h | h | h
    · rw [domainOf_eq_none h] at hd
      cases hd
    · rw [indexOf_eq_none h] at ht
      cases ht
    · rw [rightsArg_eq_none (Or.inl h)] at hr
      cases hr
    · rw [rightsArg_eq_none (Or.inr h)] at hr
      cases hr
    · rw [clearanceOf_eq_none h] at hf
      cases hf
    · rw [deadlineArg_eq_none h] at hdl
      cases hdl
  · rfl

theorem extentInRange_eq_false_iff (x : BitVec 40) :
    extentInRange x = false ↔ x.toNat % 64 ≠ 0 ∨ x.toNat < 64 ∨ 2 ^ 32 < x.toNat := by
  simp only [extentInRange, decide_eq_false_iff_not]
  omega

theorem dataInRange_eq_false_iff (d : DataBody) (h : (d.rights.read || d.rights.write) = true) :
    d.inRange = false ↔ d.base.toNat % 64 ≠ 0 ∨ d.extent.toNat % 64 ≠ 0 ∨ d.extent.toNat < 64 ∨
      2 ^ 32 < d.extent.toNat ∨ 2 ^ 48 < d.base.toNat + d.extent.toNat := by
  simp only [DataBody.inRange, h, Bool.and_true, Bool.and_eq_false_iff, extentInRange_eq_false_iff,
    decide_eq_false_iff_not]
  omega

theorem aliasInRange_eq_false_iff (a : AliasBody) (h : (a.rights.read || a.rights.write) = true) :
    a.inRange = false ↔ a.offset.toNat % 64 ≠ 0 ∨ a.extent.toNat % 64 ≠ 0 ∨ a.extent.toNat < 64 ∨
      2 ^ 32 < a.extent.toNat := by
  simp only [AliasBody.inRange, h, Bool.and_true, Bool.and_eq_false_iff, extentInRange_eq_false_iff,
    decide_eq_false_iff_not]

/-- A deadline argument that is given does not exceed the epoch (R102). -/
theorem deadlineAhead_eq_false_iff (s : State) (b : Byte) (v : BitVec 48) :
    s.deadlineAhead (if b = 1 then some v else none) = false ↔ b = 1 ∧ v ≤ s.epoch := by
  by_cases hb : b = 1
  · simp [deadlineAhead, hb]
  · rw [if_neg hb]
    exact ⟨fun h => (nomatch h), fun h => absurd h.1 hb⟩

theorem staleHandle_eq_true_iff (T : Tables) (i : Index) (g : Generation) :
    staleHandle T i g = true ↔
      (T.entry i).state = .free ∨ (T.entry i).state = .pending ∨ (T.entry i).generation ≠ g := by
  simp [staleHandle]

theorem usable_eq_false_iff (T : Tables) (i : Index) :
    usable T i = false ↔ (T.entry i).state ≠ .live ∧ (T.entry i).state ≠ .suspended := by
  simp [usable]

theorem domainRule_eq_false_iff (T : Tables) (d : DomainId) (t : Index) :
    domainRule T d t = false ↔ (T.entry t).domain ≠ some d ∧ (T.entry t).domain ≠ some 15 := by
  rw [domainRule, decide_eq_false_iff_not, not_or]
  rfl

/-- Index 0 is the null index (R1). -/
theorem val_eq_zero_iff (i : Index) : i.val = 0 ↔ i = 0 := by
  rw [Fin.ext_iff]
  rfl

theorem exec_establishData (s : State) (a : EstablishDataArgs) (h : s.listening) :
    exec (.establishData a) s = .next ((s.acceptance (.establishData a)).acceptEstablishData a) :=
  exec_command_of_listening s (.establishData a) h

theorem exec_establishAlias (s : State) (a : EstablishAliasArgs) (h : s.listening) :
    exec (.establishAlias a) s = .next ((s.acceptance (.establishAlias a)).acceptEstablishAlias a) :=
  exec_command_of_listening s (.establishAlias a) h

theorem exec_establishData_of_refusal {s : State} {a : EstablishDataArgs} {d : DomainId} {body : DataBody}
    {dl : Option Epoch} {st : AnswerStatus} (h : s.listening) (ha : establishDataOf a = some (d, body, dl))
    (hst : s.establishDataRefusal d body dl = some st) :
    exec (.establishData a) s = .next (s.answered (.establishData a) st []) := by
  have hst' : (s.acceptance (.establishData a)).establishDataRefusal d body dl = some st := hst
  simp only [exec_establishData s a h, acceptEstablishData, ha, hst', acceptance_refuse]

theorem exec_establishAlias_of_refusal {s : State} {a : EstablishAliasArgs} {d : DomainId} {t : Index}
    {body : AliasBody} {dl : Option Epoch} {st : AnswerStatus} (h : s.listening)
    (ha : establishAliasOf a = some (d, t, body, dl))
    (hst : s.establishAliasRefusal d t a.targetGeneration body dl = some st) :
    exec (.establishAlias a) s = .next (s.answered (.establishAlias a) st []) := by
  have hst' : (s.acceptance (.establishAlias a)).establishAliasRefusal d t a.targetGeneration body dl = some st := hst
  simp only [exec_establishAlias s a h, acceptEstablishAlias, ha, hst', acceptance_refuse]

/-- Settles O22: an argument that fails its encoding test leaves nothing to ask for; the tests of the rules are the
model's tests, in the same order. -/
theorem establishRefusals : Obligations.EstablishRefusals := by
  refine ⟨fun s a h => ⟨fun hbad => ?_, fun d st hd hr0 hr hx hf hp hp0 hst => ?_⟩,
    fun s a h => ⟨fun hbad => ?_, fun d t st hd ht hr0 hr hf hp hp0 hst => ?_⟩⟩
  · simp only [exec_establishData s a h, acceptEstablishData, establishDataOf_eq_none hbad, acceptance_refuse]
  · obtain ⟨x, hx⟩ := sharingArg_of_le hx
    have ha : establishDataOf a = some (d, ⟨a.base, a.extent, rightsOf a.rights, x, ⟨a.floor.toNat, Nat.lt_succ_of_le hf⟩, a.tag⟩,
        if a.deadlinePresent = 1 then some a.deadline else none) := by
      simp only [establishDataOf, domainOf_eq_some hd, rightsArg_eq_some hr0 hr, hx, clearanceOf_of_lt hf,
        deadlineArg_eq_some hp hp0]
    have hrange := dataInRange_eq_false_iff
      ⟨a.base, a.extent, rightsOf a.rights, x, ⟨a.floor.toNat, Nat.lt_succ_of_le hf⟩, a.tag⟩ (rightsOf_nonempty hr0 hr)
    refine exec_establishData_of_refusal h ha ?_
    rw [← hst]
    simp only [establishDataRefusal, quotaFull, decide_eq_true_eq, ite_or_eq,
      hrange, deadlineAhead_eq_false_iff]
  · simp only [exec_establishAlias s a h, acceptEstablishAlias, establishAliasOf_eq_none hbad, acceptance_refuse]
  · have ha : establishAliasOf a = some (d, t, ⟨a.offset, a.extent, rightsOf a.rights, ⟨a.floor.toNat, Nat.lt_succ_of_le hf⟩, a.tag⟩,
        if a.deadlinePresent = 1 then some a.deadline else none) := by
      simp only [establishAliasOf, domainOf_eq_some hd, indexOf_eq_some ht, rightsArg_eq_some hr0 hr,
        clearanceOf_of_lt hf, deadlineArg_eq_some hp hp0]
    have hrange := aliasInRange_eq_false_iff
      ⟨a.offset, a.extent, rightsOf a.rights, ⟨a.floor.toNat, Nat.lt_succ_of_le hf⟩, a.tag⟩ (rightsOf_nonempty hr0 hr)
    refine exec_establishAlias_of_refusal h ha ?_
    rw [← hst]
    simp only [establishAliasRefusal, quotaFull, decide_eq_true_eq, ite_or_eq,
      hrange, deadlineAhead_eq_false_iff, val_eq_zero_iff,
      staleHandle_eq_true_iff, usable_eq_false_iff, domainRule_eq_false_iff, Config.maxAliases]

/-! ## Requests by handle (R76) -/

theorem handleRefusal_eq (s : State) (i : Index) (g : Generation) :
    s.handleRefusal i g =
      if i = 0 then some .badArgument
      else if (s.tables.entry i).state = .free ∨ (s.tables.entry i).state = .pending ∨
        (s.tables.entry i).generation ≠ g then some .stale
      else none := by
  simp only [handleRefusal, val_eq_zero_iff, staleHandle_eq_true_iff]

/-! ## AMEND (R82) -/

theorem exec_amend (s : State) (a : AmendArgs) (h : s.listening) :
    exec (.amend a) s = .next ((s.acceptance (.amend a)).acceptAmend a) :=
  exec_command_of_listening s (.amend a) h

theorem masked_eq_none {α : Type} {on : Bool} {x : Option α} (hon : on = true) (hx : x = none) :
    masked on x = none := by
  rw [hon, hx]
  rfl

theorem masked_eq_some {α : Type} {on : Bool} {x : Option α} {y : Option α} (h : masked on x = some y) :
    y.isSome = on := by
  cases on with
  | false =>
    cases h
    rfl
  | true =>
    obtain ⟨z, _, rfl⟩ := Option.map_eq_some_iff.mp h
    rfl

/-- What the changes of an AMEND are, where every masked field passes its encoding test (R188, R190). -/
theorem changesOf_eq_some {a : AmendArgs} {c : AmendChanges} (h : changesOf a = some c) :
    masked (a.mask.getLsbD 0) (rightsArg a.rights) = some c.rights ∧
      masked (a.mask.getLsbD 1) (sharingArg a.sharing) = some c.sharing ∧
      masked (a.mask.getLsbD 2) (clearanceOf a.floor) = some c.floor ∧
      c.extent = (if a.mask.getLsbD 3 then some a.extent else none) ∧
      c.tag = (if a.mask.getLsbD 4 then some a.tag else none) ∧
      c.deadline = deadlineChange a.mask a.deadline := by
  unfold changesOf at h
  split at h
  · next hr hx hf =>
    cases h
    exact ⟨hr, hx, hf, rfl, rfl, rfl⟩
  · cases h

theorem changesOf_eq_none {a : AmendArgs} (h : (a.mask.getLsbD 0 = true ∧ (a.rights = 0 ∨ 3 < a.rights.toNat)) ∨
    (a.mask.getLsbD 1 = true ∧ 1 < a.sharing.toNat) ∨ (a.mask.getLsbD 2 = true ∧ 7 < a.floor.toNat)) :
    changesOf a = none := by
  cases hc : changesOf a with
  | none => rfl
  | some c =>
    obtain ⟨hr, hx, hf, -⟩ := changesOf_eq_some hc
    rcases h with ⟨hon, h⟩ | ⟨hon, h⟩ | ⟨hon, h⟩
    · rw [masked_eq_none hon (rightsArg_eq_none h)] at hr
      cases hr
    · rw [masked_eq_none hon (sharingArg_eq_none h)] at hx
      cases hx
    · rw [masked_eq_none hon (clearanceOf_eq_none h)] at hf
      cases hf

theorem extent_isSome_of_changes {a : AmendArgs} {c : AmendChanges} (h : changesOf a = some c) :
    c.extent.isSome = a.mask.getLsbD 3 := by
  obtain ⟨-, -, -, hextent, -⟩ := changesOf_eq_some h
  rw [hextent]
  cases a.mask.getLsbD 3 <;> rfl

/-- Step 2 of R82 fails. -/
theorem changesAdmitted_eq_false_iff {s : State} {i : Index} {a : AmendArgs} {c : AmendChanges}
    (h : changesOf a = some c) :
    s.changesAdmitted i a.mask c = false ↔
      a.mask.extractLsb' 0 7 = 0 ∨ (a.mask.getLsbD 5 = true ∧ a.mask.getLsbD 6 = true) ∨
        (a.mask.getLsbD 1 = true ∧ (s.tables.entry i).kind = some .aliasKind) ∨
        (a.mask.getLsbD 3 = true ∧ (a.extent.toNat % 64 ≠ 0 ∨ a.extent.toNat < 64 ∨ 2 ^ 32 < a.extent.toNat)) ∨
        (a.mask.getLsbD 5 = true ∧ a.deadline ≤ s.epoch) := by
  obtain ⟨-, hsharing, -, hextent, -, hdeadline⟩ := changesOf_eq_some h
  have hmask : maskAdmitted a.mask = false ↔
      a.mask.extractLsb' 0 7 = 0 ∨ (a.mask.getLsbD 5 = true ∧ a.mask.getLsbD 6 = true) := by
    simp only [maskAdmitted, Bool.and_eq_false_iff, Bool.not_eq_false', Bool.and_eq_true,
      decide_eq_false_iff_not, not_not]
  have hkind : (c.sharing.isSome && decide ((s.tables.entry i).kind = some .aliasKind)) = true ↔
      a.mask.getLsbD 1 = true ∧ (s.tables.entry i).kind = some .aliasKind := by
    rw [masked_eq_some hsharing]
    simp
  have hrange : (c.extent.all extentInRange) = false ↔ a.mask.getLsbD 3 = true ∧
      (a.extent.toNat % 64 ≠ 0 ∨ a.extent.toNat < 64 ∨ 2 ^ 32 < a.extent.toNat) := by
    rw [hextent, ← extentInRange_eq_false_iff]
    cases a.mask.getLsbD 3 <;> simp
  have hahead : s.deadlineChangeAhead c.deadline = false ↔ a.mask.getLsbD 5 = true ∧ a.deadline ≤ s.epoch := by
    rw [hdeadline, deadlineChange]
    cases a.mask.getLsbD 5 <;> cases a.mask.getLsbD 6 <;> simp [deadlineChangeAhead]
  simp only [changesAdmitted, Bool.and_eq_false_iff, Bool.not_eq_false', hmask, hkind, hrange, hahead, or_assoc]

theorem exec_amend_of_refusal {s : State} {a : AmendArgs} {i : Index} {c : AmendChanges} {st : AnswerStatus}
    (h : s.listening) (hi : a.index.toNat = i.val) (hf : a.force.toNat ≤ 1) (hc : changesOf a = some c)
    (hst : s.amendRefusal i a.generation a.mask c = some st) :
    exec (.amend a) s = .next (s.answered (.amend a) st []) := by
  have hst' : (s.acceptance (.amend a)).amendRefusal i a.generation a.mask c = some st := hst
  simp only [exec_amend s a h, acceptAmend, indexOf_eq_some hi, flagOf_eq_some hf, hc, hst', acceptance_refuse]

/-- The tests of an AMEND at acceptance, in the order of R82. -/
theorem amendRefusal_eq {s : State} {i : Index} {a : AmendArgs} {c : AmendChanges} (h : changesOf a = some c) :
    s.amendRefusal i a.generation a.mask c =
      (let e := s.tables.entry i
       if i = 0 then some AnswerStatus.badArgument
       else if e.state = .free ∨ e.state = .pending ∨ e.generation ≠ a.generation then some .stale
       else if e.state ≠ .live ∧ e.state ≠ .suspended then some .state
       else if a.mask.extractLsb' 0 7 = 0 ∨ (a.mask.getLsbD 5 = true ∧ a.mask.getLsbD 6 = true) ∨
           (a.mask.getLsbD 1 = true ∧ e.kind = some .aliasKind) ∨
           (a.mask.getLsbD 3 = true ∧ (a.extent.toNat % 64 ≠ 0 ∨ a.extent.toNat < 64 ∨
             2 ^ 32 < a.extent.toNat)) ∨
           (a.mask.getLsbD 5 = true ∧ a.deadline ≤ s.epoch) then some .badArgument
       else if a.mask.getLsbD 3 = true ∧ e.kind = some .dataKind ∧ e.aliases ≠ [] then some .referenced
       else none) := by
  simp only [amendRefusal, handleRefusal_eq, usable_eq_false_iff, changesAdmitted_eq_false_iff h,
    extent_isSome_of_changes h]
  by_cases h0 : i = 0
  · simp only [if_pos h0]
  · by_cases hstale : (s.tables.entry i).state = .free ∨ (s.tables.entry i).state = .pending ∨
        (s.tables.entry i).generation ≠ a.generation
    · simp only [if_neg h0, if_pos hstale]
    · simp only [if_neg h0, if_neg hstale]

/-! ## REVOKE (R88) -/

theorem exec_revoke (s : State) (a : RevokeArgs) (h : s.listening) :
    exec (.revoke a) s = .next ((s.acceptance (.revoke a)).acceptRevoke a) :=
  exec_command_of_listening s (.revoke a) h

theorem retirable_eq_false_iff (x : RecState) :
    Tables.retirable x = false ↔ x = .free ∨ x = .pending ∨ x = .draining := by
  cases x <;> decide

theorem exec_revoke_of_refusal {s : State} {a : RevokeArgs} {i : Index} {st : AnswerStatus} (h : s.listening)
    (hi : a.index.toNat = i.val) (hf : a.flags.toNat ≤ 3)
    (hst : s.revokeRefusal i a.generation (a.flags.getLsbD 0) = some st) :
    exec (.revoke a) s = .next (s.answered (.revoke a) st []) := by
  have hst' : (s.acceptance (.revoke a)).revokeRefusal i a.generation (a.flags.getLsbD 0) = some st := hst
  simp only [exec_revoke s a h, acceptRevoke, indexOf_eq_some hi, revokeFlags_eq_some hf, hst', acceptance_refuse]

/-- The tests of a REVOKE, in the order of R88: behind that of the handle a record that is not DRAINING can be
retired. -/
theorem revokeRefusal_eq (s : State) (i : Index) (g : Generation) (casc : Bool) :
    s.revokeRefusal i g casc =
      (let e := s.tables.entry i
       if i = 0 then some AnswerStatus.badArgument
       else if e.state = .free ∨ e.state = .pending ∨ e.generation ≠ g then some .stale
       else if e.state = .draining then some .state
       else if e.aliases ≠ [] ∧ casc = false then some .referenced
       else none) := by
  simp only [revokeRefusal, handleRefusal_eq]
  by_cases h0 : i = 0
  · simp only [if_pos h0]
  · by_cases hstale : (s.tables.entry i).state = .free ∨ (s.tables.entry i).state = .pending ∨
        (s.tables.entry i).generation ≠ g
    · simp only [if_neg h0, if_pos hstale]
    · have hdraining : Tables.retirable (s.tables.entry i).state = false ↔ (s.tables.entry i).state = .draining := by
        rw [retirable_eq_false_iff]
        tauto
      simp only [if_neg h0, if_neg hstale, hdraining]

/-- Settles O25: an argument that fails its encoding test is refused before the handle is looked at; the tests of the
rules are the model's tests, in the same order. -/
theorem handleRefusals : Obligations.HandleRefusals := by
  refine ⟨fun s a h => ⟨fun hbad => ?_, fun i c st hi hf hc hst =>
      exec_amend_of_refusal h hi hf hc ((amendRefusal_eq hc).trans hst)⟩,
    fun s a h => ⟨fun hbad => ?_, fun i st hi hf hst =>
      exec_revoke_of_refusal h hi hf ((revokeRefusal_eq s i a.generation _).trans hst)⟩⟩
  · rw [exec_amend s a h, acceptAmend]
    split
    · next i force c hi hf hc =>
      rcases hbad with hbad | hbad | hbad
      · rw [indexOf_eq_none hbad] at hi
        cases hi
      · rw [flagOf_eq_none hbad] at hf
        cases hf
      · rw [changesOf_eq_none hbad] at hc
        cases hc
    · rfl
  · rw [exec_revoke s a h, acceptRevoke]
    split
    · next i casc brk hi hf =>
      rcases hbad with hbad | hbad
      · rw [indexOf_eq_none hbad] at hi
        cases hi
      · rw [revokeFlags_eq_none hbad] at hf
        cases hf
    · rfl

/-! ## SUSPEND and RESUME (R87) -/

/-- The claim of a request that changes nothing but a record's state. -/
theorem setRecState_rest (s : State) (i : Index) (x : RecState) :
    s.setRecState i x = { s with tables := { s.tables with rst := (s.setRecState i x).tables.rst } } := by
  rw [setRecState, onTables, ← Tables.modEntry_rest]

/-- SUSPEND and RESUME through one acceptance claim. -/
theorem exec_change {s : State} {a : HandleArgs} {r : Request} {found next : RecState} (h : s.listening)
    (hr : (r = .suspend a ∧ found = .live ∧ next = .suspended) ∨
      (r = .resume a ∧ found = .suspended ∧ next = .live)) :
    exec r.command s = .next ((s.acceptance r).acceptChange a found next) := by
  rcases hr with ⟨rfl, rfl, rfl⟩ | ⟨rfl, rfl, rfl⟩ <;> exact exec_command_of_listening s _ h

/-- The tests of SUSPEND and RESUME for an index in range, and their claim. -/
theorem acceptChange_eq {s : State} {a : HandleArgs} {r : Request} {found next : RecState} {i : Index}
    (hi : a.index.toNat = i.val) :
    (s.acceptance r).acceptChange a found next =
      if i = 0 then s.answered r .badArgument []
      else if (s.tables.entry i).state = .free ∨ (s.tables.entry i).state = .pending ∨
        (s.tables.entry i).generation ≠ a.generation then s.answered r .stale []
      else if (s.tables.entry i).state = found then
        State.answered (s.setRecState i next) r .done []
      else s.answered r .state [] := by
  have hrefusal : (s.acceptance r).handleRefusal i a.generation = s.handleRefusal i a.generation := rfl
  simp only [acceptChange, indexOf_eq_some hi, hrefusal, handleRefusal_eq]
  by_cases h0 : i = 0
  · simp only [if_pos h0, acceptance_refuse]
  · by_cases hstale : (s.tables.entry i).state = .free ∨ (s.tables.entry i).state = .pending ∨
        (s.tables.entry i).generation ≠ a.generation
    · simp only [if_neg h0, if_pos hstale, acceptance_refuse]
    · simp only [if_neg h0, if_neg hstale]
      rfl

/-- Settles O27: the index, the handle, then the state that the request is for. -/
theorem suspendAndResume : Obligations.SuspendAndResume := by
  intro s a r found next h hr
  rw [exec_change h hr]
  have hfound : found ≠ .free ∧ found ≠ .pending := by
    rcases hr with ⟨-, rfl, -⟩ | ⟨-, rfl, -⟩ <;> decide
  refine ⟨fun hi => ?_, fun i hi => ?_⟩
  · rw [acceptChange, indexOf_eq_none hi]
    rfl
  · intro e
    rw [acceptChange_eq hi]
    refine ⟨fun h0 => by rw [if_pos h0], fun h0 hstale => by rw [if_neg h0, if_pos hstale],
      fun h0 hfree hpending hgen hstate => ?_, fun h0 hgen hstate => ?_⟩
    · rw [if_neg h0, if_neg (by simp only [not_or, not_not]; exact ⟨hfree, hpending, hgen⟩), if_neg hstate]
    · have hstands : ¬ (e.state = .free ∨ e.state = .pending ∨ e.generation ≠ a.generation) := by
        rw [hstate]
        simp [hfound.1, hfound.2, hgen]
      rw [if_neg h0, if_neg hstands, if_pos hstate]
      refine ⟨_, rfl, ?_, fun j hj => ?_, ?_⟩
      · exact (Tables.entry_modEntry s.tables i i _).trans (by simp [h0, e])
      · exact (Tables.entry_modEntry s.tables i j _).trans (by simp [hj])
      · rw [setRecState_rest]
        rfl

end Sys2Proof.Machine
end

section
/-! SUPPORT. FETCH_NOTICE and STATUS (R114, R115, R183): the notice that leaves the list, and the snapshot's fields,
the parked count among them. -/

namespace Sys2Proof.Machine

open State

/-! ## FETCH_NOTICE (R114, R115) -/

theorem exec_fetchNotice (s : State) (h : s.listening) :
    exec .fetchNotice s = .next (s.acceptance .fetchNotice).acceptFetchNotice :=
  exec_command_of_listening s .fetchNotice h

theorem exec_fetchNotice_of_cons {s : State} {x : Subject} {rest : List Subject} (h : s.listening)
    (hx : s.tables.notices = x :: rest) :
    exec .fetchNotice s = .next (State.answered
      { s with tables := clearSubject { s.tables with notices := rest } x } .fetchNotice .done
      (noticeBytes s.tables x rest.length)) := by
  have hx' : (s.acceptance .fetchNotice).tables.notices = x :: rest := hx
  simp only [exec_fetchNotice s h, acceptFetchNotice, hx']
  rfl

/-- What the fetch of a RECORD subject leaves (R115). -/
theorem clearSubject_record (T : Tables) (i : Index) :
    clearSubject T (.record i) = { T with
      rst := (clearSubject T (.record i)).rst
      freeList := if (T.entry i).state = .free then T.freeList ++ [i] else T.freeList } := by
  by_cases hfree : (T.entry i).state = .free
  · simp only [clearSubject, if_pos hfree]
    rw [Tables.modEntry_rest]
  · simp only [clearSubject, if_neg hfree]
    rw [← Tables.modEntry_rest]

theorem clearSubject_record_entry (T : Tables) (i j : Index) (h : i ≠ 0) :
    (clearSubject T (.record i)).entry j =
      if j = i then { T.entry j with reasons := .empty, noticeGen := none } else T.entry j := by
  have hmod := Tables.entry_modEntry T i j fun e => { e with reasons := .empty, noticeGen := none }
  simp only [ne_eq, h, not_false_eq_true, and_true] at hmod
  rw [← hmod, clearSubject]
  split <;> rfl

/-- Settles O30: the four kinds of subject at the head of the list. -/
theorem fetchNoticeRemovesHead : Obligations.FetchNoticeRemovesHead := by
  intro s h
  refine ⟨fun hnil => ?_, fun i rest hx h0 => ?_, fun p rest hx => ?_, fun d rest hx hd => ?_,
    fun b rest hx hb => ?_⟩
  · have hnil' : (s.acceptance .fetchNotice).tables.notices = [] := hnil
    simp only [exec_fetchNotice s h, acceptFetchNotice, hnil']
    rfl
  · rw [exec_fetchNotice_of_cons h hx]
    refine ⟨_, rfl, ?_, fun j hj => ?_, ?_⟩
    · exact (clearSubject_record_entry _ i i h0).trans (if_pos rfl)
    · exact (clearSubject_record_entry _ i j h0).trans (if_neg hj)
    · conv_lhs => rw [clearSubject_record]
      rfl
  · rw [exec_fetchNotice_of_cons h hx]
    rfl
  · rw [exec_fetchNotice_of_cons h hx, noticeBytes, hd]
    rfl
  · rw [exec_fetchNotice_of_cons h hx, noticeBytes, hb]
    rfl

/-! ## The parked count (R183) -/

namespace Table

variable {α : Type} [DecidableEq α]

/-- The keys of a table in canonical form rise. -/
theorem keys_pairwise (d : α) (low : Option Nat) (t : List (Nat × α)) (h : wfAbove d low t = true) :
    (t.map Prod.fst).Pairwise (· < ·) ∧ ∀ x ∈ t, ∀ l, low = some l → l < x.1 := by
  induction t generalizing low with
  | nil => exact ⟨List.Pairwise.nil, fun x hx => (List.not_mem_nil hx).elim⟩
  | cons x r ih =>
    obtain ⟨k, v⟩ := x
    simp only [wfAbove, Bool.and_eq_true] at h
    obtain ⟨⟨hlow, -⟩, hr⟩ := h
    obtain ⟨hsorted, habove⟩ := ih (some k) hr
    have hk : ∀ l, low = some l → l < k := by
      rintro l rfl
      simpa using hlow
    refine ⟨List.Pairwise.cons (fun m hm => ?_) hsorted, fun x hx l hl => ?_⟩
    · obtain ⟨x, hx, rfl⟩ := List.mem_map.mp hm
      exact habove x hx k rfl
    · rcases List.mem_cons.mp hx with rfl | hx
      · exact hk l hl
      · exact (hk l hl).trans (habove x hx k rfl)

/-- What stands in a table in canonical form is what its key reads as. -/
theorem get_of_mem (d : α) (low : Option Nat) (t : List (Nat × α)) (h : wfAbove d low t = true) (k : Nat) (v : α)
    (hmem : (k, v) ∈ t) : get d t k = v := by
  induction t generalizing low with
  | nil => exact (List.not_mem_nil hmem).elim
  | cons x r ih =>
    obtain ⟨k', v'⟩ := x
    have habove := (keys_pairwise d low _ h).1
    simp only [wfAbove, Bool.and_eq_true] at h
    rcases List.mem_cons.mp hmem with heq | hmem
    · cases heq
      simp [get]
    · have hlt : k' < k := (List.pairwise_cons.mp habove).1 k (List.mem_map.mpr ⟨_, hmem, rfl⟩)
      rw [get, if_neg (by omega), if_neg (by omega)]
      exact ih (some k') h.2 hmem

omit [DecidableEq α] in
/-- A key that does not read as an unlisted one stands in the table. -/
theorem mem_of_get (d : α) (t : List (Nat × α)) (k : Nat) (h : get d t k ≠ d) : (k, get d t k) ∈ t := by
  induction t with
  | nil => exact absurd rfl h
  | cons x r ih =>
    obtain ⟨k', v'⟩ := x
    rw [get] at h ⊢
    split_ifs at h ⊢ with hlt heq
    · exact absurd rfl h
    · rw [heq]
      exact List.mem_cons_self
    · exact List.mem_cons_of_mem _ (ih h)

end Table

theorem isParked_iff (e : StatusEntry) :
    Tables.isParked e = true ↔ e.state = .free ∧ e.reasons ≠ ⟨false, false, false, false⟩ := by
  rw [Tables.isParked, Bool.and_eq_true, decide_eq_true_eq, Bool.not_eq_true', ← Bool.not_eq_true, Tables.isEmpty_iff]
  exact Iff.rfl

/-- Where the status table is canonical the parked entries listed are the parked indices. -/
theorem parkedCount_eq (s : State) (h : s.Canonical) :
    s.tables.parkedCount = indexCount fun i => Tables.isParked (s.tables.entry i) := by
  obtain ⟨hwf, hkeys, -⟩ := h
  have hsorted := (Table.keys_pairwise _ none _ hwf).1
  have hval : ∀ x ∈ s.tables.rst, (Fin.ofNat 4096 x.1 : Index).val = x.1 := fun x hx =>
    Nat.mod_eq_of_lt (Nat.lt_succ_of_le (hkeys x hx).2)
  have hentry : ∀ x ∈ s.tables.rst, s.tables.entry (Fin.ofNat 4096 x.1) = x.2 := fun x hx => by
    have hpos := (hkeys x hx).1
    rw [Tables.entry, hval x hx, if_neg (by omega)]
    exact Table.get_of_mem _ none _ hwf _ _ hx
  have hblank : Tables.isParked .blank = false := rfl
  have hmem : ∀ i, Tables.isParked (s.tables.entry i) = true → (i.val, s.tables.entry i) ∈ s.tables.rst := by
    intro i hi
    by_cases h0 : i.val = 0
    · rw [Tables.entry, if_pos h0, hblank] at hi
      cases hi
    · rw [Tables.entry, if_neg h0] at hi ⊢
      refine Table.mem_of_get _ _ _ fun hget => ?_
      rw [hget, hblank] at hi
      cases hi
  rw [Tables.parkedCount, indexCount, ← List.length_map (f := fun x => (Fin.ofNat 4096 x.1 : Index))]
  refine List.Perm.length_eq ((List.perm_ext_iff_of_nodup ?_ ((List.nodup_finRange _).filter _)).mpr fun i => ?_)
  · refine List.Nodup.map_on (fun x hx y hy hxy => ?_) ((List.Nodup.of_map _ (hsorted.imp Nat.ne_of_lt)).filter _)
    have hxr := List.mem_of_mem_filter hx
    have hyr := List.mem_of_mem_filter hy
    have hkey : x.1 = y.1 := by rw [← hval x hxr, ← hval y hyr, hxy]
    exact Prod.ext hkey (by rw [← hentry x hxr, ← hentry y hyr, hkey])
  · simp only [List.mem_map, List.mem_filter, List.mem_finRange, true_and]
    constructor
    · rintro ⟨x, ⟨hx, hparked⟩, rfl⟩
      rw [hentry x hx]
      exact hparked
    · exact fun hi => ⟨_, ⟨hmem i hi, hi⟩, Fin.ext (Nat.mod_eq_of_lt i.isLt)⟩

/-! ## STATUS (R183) -/

theorem exec_status (s : State) (h : s.listening) : exec .status s = .next (s.acceptance .status).acceptStatus :=
  exec_command_of_listening s .status h

theorem byteAt_append (l m : List Byte) (n : Nat) : byteAt (l ++ m) (l.length + n) = byteAt m n := by
  simp only [byteAt, List.getD_eq_getElem?_getD, List.getElem?_append_right (Nat.le_add_right _ _),
    Nat.add_sub_cancel_left]

/-- Settles O14: the content is one list of bytes, in which each field stands at its place. -/
theorem statusAnswersSnapshot : Obligations.StatusAnswersSnapshot := by
  intro s h
  have hcontent : (s.acceptance .status).statusBytes = s.statusBytes := rfl
  refine ⟨s.statusBytes, by rw [exec_status s h, acceptStatus, acceptance_answer, hcontent], rfl, rfl,
    word6 _, word2 _, rfl, word2 _, fun hcanonical => ?_, word2 _, word2 _, fun b => ?_, ?_, fun p => ?_⟩
  · refine (word2 _).trans ?_
    rw [parkedCount_eq s hcanonical]
    congr 2
    funext i
    rw [Bool.eq_iff_iff, isParked_iff, decide_eq_true_eq]
  · fin_cases b <;> rfl
  · show byteOr (s.sweep.map fun w => w.domain.val) = _
    cases s.sweep <;> rfl
  · fin_cases p <;> rfl

end Sys2Proof.Machine
end

section
/-! SUPPORT. Frames that are not taken: management frames that are refused, ignored or in error (R176, R177), frames
that arrive on a RESETTING port (R137), and protocol faults (R164, R167); and the transmitter (R169). -/

namespace Sys2Proof.Machine

/-! ## Management frames that are not taken (R176, R177) -/

namespace State

variable {s : State}

theorem managementFrame_ignored (type : Byte) (l : List Byte) (hreset : s.resetAsserted = false)
    (h : s.partState = .starting ∨ (type ≠ writeType ∧ type ≠ readType)) :
    s.managementFrame (type :: l) = s.shiftOut (fillBytes l.length) := by
  by_cases hstart : s.partState = .starting
  · simp [managementFrame, hreset, hstart]
  · obtain ⟨hwrite, hread⟩ := h.resolve_left hstart
    simp [managementFrame, hreset, hstart, hwrite, hread]

theorem managementFrame_write (l : List Byte) (hreset : s.resetAsserted = false) (hstart : s.partState ≠ .starting) :
    s.managementFrame (writeType :: l) = s.writeFrame l := by
  simp [managementFrame, hreset, hstart]

theorem writeFrame_of_busy (l : List Byte) (h : s.iface ≠ .idle) :
    s.writeFrame l = { s.shiftOut (fillBytes l.length) with refused := true } := by
  unfold writeFrame
  split
  · exact absurd ‹_› h
  · rfl
  · rfl

end State

theorem bytes2_append (x y : Byte) : bytes2 (x ++ y) = [x, y] := by
  have hx : (x ++ y).extractLsb' 8 8 = x := by
    ext i hi
    rw [BitVec.getElem_extractLsb']
    refine (BitVec.getLsbD_append (x := x) (y := y)).trans ?_
    simp [BitVec.getLsbD_eq_getElem hi]
  have hy : (x ++ y).extractLsb' 0 8 = y := by
    ext i hi
    rw [BitVec.getElem_extractLsb', Nat.zero_add]
    refine (BitVec.getLsbD_append (x := x) (y := y)).trans ?_
    simp [hi]
  rw [bytes2, hx, hy]

/-- Two bytes are the bytes of the field they make. -/
theorem bytes2_wordAt (l : List Byte) (n : Nat) (h : l.length = n + 2) : bytes2 (wordAt l n) = l.drop n := by
  obtain ⟨x, y, hxy⟩ : ∃ x y, l.drop n = [x, y] := by
    match hd : l.drop n with
    | [x, y] => exact ⟨x, y, rfl⟩
    | [] | [_] | _ :: _ :: _ :: _ =>
      have := congrArg List.length hd
      simp [h] at this
  have hword : wordAt l n = x ++ y := by
    have hn : (l.take n).length = n := by simp [h]
    have happend := wordAt_append (l.take n) (l.drop n)
    rw [List.take_append_drop, hn, hxy] at happend
    exact happend
  rw [hword, bytes2_append, hxy]

/-- A write frame that is read as a request is the kind, length, arguments and CRC-16 of one (R177). -/
theorem frame_of_writeRequest {l : List Byte} {r : Request} (h : State.writeRequest l = some r) :
    ∃ (kind : Byte) (args : List Byte), argLength kind = some args.length ∧
      l = kind :: byteNat args.length :: (args ++ bytes2 (crc16 (kind :: byteNat args.length :: args))) := by
  match l, h with
  | kind :: len :: rest, h =>
    simp only [State.writeRequest] at h
    split at h
    · cases h
    · next n hn =>
      split at h
      · next hframe =>
        obtain ⟨hlen, hrest, hcrc⟩ := hframe
        have htake : (rest.take n).length = n := by simp [hrest]
        have hbyte : byteNat n = len := by
          rw [← hlen]
          exact BitVec.ofNat_toNat 8 len |>.trans (BitVec.setWidth_eq len)
        refine ⟨kind, rest.take n, by rw [htake, hn], ?_⟩
        rw [htake, hbyte, ← hcrc, bytes2_wordAt rest n hrest, List.take_append_drop]
      · cases h

theorem writeRequest_eq_none {l : List Byte} (h : ¬ ∃ (kind : Byte) (args : List Byte),
    argLength kind = some args.length ∧
      l = kind :: byteNat args.length :: (args ++ bytes2 (crc16 (kind :: byteNat args.length :: args)))) :
    State.writeRequest l = none := by
  cases hr : State.writeRequest l with
  | none => rfl
  | some r => exact absurd (frame_of_writeRequest hr) h

theorem errorKind_cons (kind : Byte) (l : List Byte) :
    State.errorKind (kind :: l) = if argLength kind = none then 0 else kind := by
  show (if (argLength kind).isSome = true then kind else 0) = if argLength kind = none then 0 else kind
  cases argLength kind <;> rfl

theorem exec_writeFrame (s : State) (l : List Byte) : exec (.writeFrameRefused l) s = .next (s.managementFrame l) :=
  rfl

theorem length_requestBytes (r : Request) : (withCrc (requestBody r)).length = (requestArgs r).length + 4 := by
  rw [length_withCrc, State.length_requestBody]

/-- Settles O11: the interface in hand, the part state and the type byte, and the frame's own test. -/
theorem framesNotTaken : Obligations.FramesNotTaken := by
  refine ⟨fun s hreset hstart hbusy => ⟨fun l => ?_, fun r => ?_⟩, fun s type l hreset h => ?_, fun s l h hframe => ?_⟩
  · rw [exec_writeFrame, State.managementFrame_write l hreset hstart, State.writeFrame_of_busy l hbusy]
    rfl
  · rw [exec_command, requestFrame, State.managementFrame_write _ hreset hstart, State.writeFrame_of_busy _ hbusy,
      length_requestBytes]
    rfl
  · rw [exec_writeFrame, State.managementFrame_ignored type l hreset h]
    rfl
  · obtain ⟨hreset, hstart, hidle⟩ := h
    rw [exec_writeFrame, State.managementFrame_write l hreset hstart, State.writeFrame, hidle]
    simp only [State.takeWrite, writeRequest_eq_none hframe]
    cases l with
    | nil => rfl
    | cons kind rest =>
      rw [errorKind_cons]
      rfl

/-! ## Arriving frames that are discarded (R137, R164, R171) -/

namespace State

variable {s : State}

theorem takeFrame_of_resetting {p : PortId} (l : List Byte) (h : (s.tables.port p).state = .resetting) :
    s.takeFrame p l = s := if_pos h

/-- Only the receiver of the link can differ from `s`. -/
def SameButReceiver (s : State) (p : PortId) (t : State) : Prop :=
  ∃ r, t = { s with receivers := place s.receivers p r }

theorem sameButReceiver_refl (p : PortId) : SameButReceiver s p s :=
  ⟨pick s.receivers p, by rw [place_pick]⟩

theorem sameButReceiver_takeSymbol {t : State} {p : PortId} (y : Symbol) (h : (s.tables.port p).state = .resetting)
    (ht : SameButReceiver s p t) : SameButReceiver s p (takeSymbol p t y) := by
  obtain ⟨r, rfl⟩ := ht
  have hset : ∀ x, SameButReceiver s p (setReceiver { s with receivers := place s.receivers p r } p x) :=
    fun x => ⟨x, by simp only [setReceiver, place_place]⟩
  have hdiscard : ∀ x l, (setReceiver { s with receivers := place s.receivers p r } p x).takeFrame p l =
      setReceiver { s with receivers := place s.receivers p r } p x := fun x l => takeFrame_of_resetting l h
  unfold takeSymbol
  split
  · exact hset _
  · exact ⟨r, rfl⟩
  · exact ⟨r, rfl⟩
  · exact ⟨r, rfl⟩
  · split
    · exact hset _
    · rw [hdiscard]
      exact hset _
  · rw [hdiscard]
    exact hset _
  · rw [hdiscard]
    exact hset _
  · rw [hdiscard]
    exact hset _

theorem sameButReceiver_receive {p : PortId} (l : List Symbol) (h : (s.tables.port p).state = .resetting) :
    SameButReceiver s p (s.receive p l) := by
  have hfold : ∀ (l : List Symbol) (t : State), SameButReceiver s p t → SameButReceiver s p (l.foldl (takeSymbol p) t) := by
    intro l
    induction l with
    | nil => exact fun t ht => ht
    | cons y l ih => exact fun t ht => ih _ (sameButReceiver_takeSymbol y h ht)
  unfold receive
  split
  · exact sameButReceiver_refl p
  · exact hfold l s (sameButReceiver_refl p)

end State

/-- Settles O9: each symbol leaves all but the receiver of its link. -/
theorem resettingPortDiscards : Obligations.ResettingPortDiscards := by
  intro p y k f g s h
  have hreceive : ∀ l, ∃ r, (Host.Outcome.next (s.receive p l) : Host.Outcome State Fault Refusal) =
      .next { s with receivers := place s.receivers p r } := by
    intro l
    obtain ⟨r, hr⟩ := State.sameButReceiver_receive l h
    exact ⟨r, congrArg _ hr⟩
  refine ⟨hreceive y, ?_, hreceive _⟩
  cases k <;> exact hreceive _

end Sys2Proof.Machine
end

section
/-! SUPPORT. Protocol faults (R134, R163, R164, R167): how the symbols of a frame arrive at a lane, which test of an
arriving frame fails, and the fence. Then the transmitter (R169). -/

namespace Sys2Proof.Machine

namespace State

variable {s : State}

/-! ## The symbols of a frame (R163) -/

/-- Fewer than sixteen bytes leave the lane RECEIVING. -/
theorem foldl_data_short (p : PortId) (l : List Byte) (s : State) (acc : List Byte)
    (hr : pick s.receivers p = .receiving acc) (hl : acc.length + l.length < 16) :
    (l.map Symbol.data).foldl (takeSymbol p) s = s.setReceiver p (.receiving (acc ++ l)) := by
  induction l generalizing s acc with
  | nil => simp [setReceiver_of_pick s p _ hr]
  | cons b r ih =>
    have hacc : acc.length < 15 := by
      rw [List.length_cons] at hl
      omega
    have hstep : takeSymbol p s (.data b) = s.setReceiver p (.receiving (acc ++ [b])) := by
      simp [takeSymbol, hr, hacc]
    rw [List.map_cons, List.foldl_cons, hstep, ih _ (acc ++ [b]) (pick_setReceiver _ _ _) (by
      simp only [List.length_append, List.length_cons, List.length_nil] at hl ⊢
      omega)]
    simp

/-- The symbols `x` bring the bytes `l` of a frame: from its START on a HUNTING lane, or the bytes that a RECEIVING
lane still has to take. -/
def Brings (s : State) (p : PortId) (l : List Byte) (x : List Symbol) : Prop :=
  (pick s.receivers p = .hunting ∧ x = frameSymbols l) ∨
    ∃ got more, pick s.receivers p = .receiving got ∧ got.length < 16 ∧ l = got ++ more ∧ x = more.map Symbol.data

/-- Either way the lane comes to the data symbols behind some bytes of the frame. -/
theorem Brings.receiving {p : PortId} {l : List Byte} {x : List Symbol} (h : Brings s p l x) :
    ∃ t got more, pick t.receivers p = .receiving got ∧ got.length < 16 ∧ l = got ++ more ∧
      (∀ z, (x ++ z).foldl (takeSymbol p) s = (more.map Symbol.data ++ z).foldl (takeSymbol p) t) ∧
      ∀ r, t.setReceiver p r = s.setReceiver p r := by
  rcases h with ⟨hr, rfl⟩ | ⟨got, more, hr, hgot, rfl, rfl⟩
  · have hstart : takeSymbol p s .start = s.setReceiver p (.receiving []) := by simp [takeSymbol, hr]
    exact ⟨s.setReceiver p (.receiving []), [], l, pick_setReceiver _ _ _, by decide, rfl,
      fun z => by rw [← hstart]; rfl, setReceiver_setReceiver s p _⟩
  · exact ⟨s, got, more, hr, hgot, rfl, fun z => rfl, fun r => rfl⟩

theorem receive_eq_foldl (p : PortId) (y : List Symbol) (hreset : s.resetAsserted = false) :
    s.receive p y = y.foldl (takeSymbol p) s := if_neg (by simp [hreset])

/-- Sixteen bytes are taken as one frame. -/
theorem receive_whole {p : PortId} {l : List Byte} {x : List Symbol} (hreset : s.resetAsserted = false)
    (h : Brings s p l x) (hl : l.length = 16) : s.receive p x = (s.setReceiver p .hunting).takeFrame p l := by
  obtain ⟨t, got, more, hr, hgot, rfl, hx, hset⟩ := h.receiving
  have hnil := hx []
  rw [List.append_nil, List.append_nil] at hnil
  rw [receive_eq_foldl p x hreset, hnil, foldl_data p more t got hr (by simpa using hl) hgot, hset]

/-- Fewer bytes are taken as one frame where something else than a data symbol ends them. -/
theorem receive_short {p : PortId} {l : List Byte} {x : List Symbol} {y : Symbol} (hreset : s.resetAsserted = false)
    (h : Brings s p l x) (hl : l.length < 16) :
    (y = .idle ∨ y = .violation → s.receive p (x ++ [y]) = (s.setReceiver p .hunting).takeFrame p l) ∧
      (y = .start → s.receive p (x ++ [y]) = (s.setReceiver p (.receiving [])).takeFrame p l) := by
  obtain ⟨t, got, more, hr, -, rfl, hx, hset⟩ := h.receiving
  have hfold : s.receive p (x ++ [y]) = takeSymbol p (t.setReceiver p (.receiving (got ++ more))) y := by
    rw [receive_eq_foldl _ _ hreset, hx [y], List.foldl_append, foldl_data_short p more t got hr (by simpa using hl)]
    rfl
  rw [hfold]
  constructor
  · rintro (rfl | rfl) <;> simp [takeSymbol, hset]
  · rintro rfl
    simp [takeSymbol, hset]

/-! ## The tests of an arriving frame (R164) -/

theorem frameChecks_eq_false_iff (l : List Byte) :
    frameChecks l = false ↔ l.length = 16 → wordAt l 14 ≠ crc16 (l.take 14) := by
  simp [frameChecks]

theorem kindKnown_eq_true_iff (l : List Byte) : kindKnown l = true ↔ byteAt l 0 ∈ [1, 2, 3] := by
  simp only [kindKnown, checkKindOf, Bool.or_eq_true, decide_eq_true_eq, List.mem_cons, List.not_mem_nil, or_false]
  split_ifs with h1 h2 <;> simp_all

theorem arrivalFault_frameCheck (p : PortId) (l : List Byte) (h : l.length = 16 → wordAt l 14 ≠ crc16 (l.take 14)) :
    s.arrivalFault p l = some .frameCheck := if_pos ((frameChecks_eq_false_iff l).mpr h)

/-- The tests behind the frame check. -/
theorem arrivalFault_of_checks {p : PortId} {l : List Byte} (hl : l.length = 16)
    (h : wordAt l 14 = crc16 (l.take 14)) :
    s.arrivalFault p l =
      if byteAt l 0 ∉ [1, 2, 3] then some .unknownKind
      else if byteAt l 0 ≠ 3 ∧ accessOf (byteAt l 7) = none then some .unknownKind
      else if s.outstanding p (frameTag l) = true then some .duplicateTag
      else none := by
  have hchecks : ¬ frameChecks l = false := fun hf => (frameChecks_eq_false_iff l).mp hf hl h
  have hkind : kindKnown l = false ↔ byteAt l 0 ∉ [1, 2, 3] := by
    rw [← kindKnown_eq_true_iff, Bool.not_eq_true]
  have haccess : accessKnown l = false ↔ byteAt l 0 ≠ 3 ∧ accessOf (byteAt l 7) = none := by
    simp [accessKnown]
  rw [arrivalFault, if_neg hchecks]
  simp only [hkind, haccess]

end State

/-! ## The fence (R134) -/

namespace Tables

variable (T : Tables)

theorem fence_off (p : PortId) (c : FenceCause) (h : (T.port p).state = .unbound ∨ (T.port p).state = .resetting) :
    State.fence T p c = T := by
  rcases h with h | h <;> simp only [State.fence, h]

/-- On an ACTIVE or FENCED port the fence makes the port FENCED and raises FENCED. -/
theorem fence_on (p : PortId) (c : FenceCause) (h : (T.port p).state = .active ∨ (T.port p).state = .fenced) :
    State.fence T p c = (T.setPort p ⟨.fenced, (T.port p).binding⟩).raiseFenced p c := by
  rcases h with hs | hs
  · simp only [State.fence, hs]
  · have hsame : T.setPort p ⟨.fenced, (T.port p).binding⟩ = T := by
      have : (⟨.fenced, (T.port p).binding⟩ : PortEntry) = pick T.ports p := by rw [← hs]; rfl
      rw [setPort, this, place_pick]
    simp only [State.fence, hs, hsame]

end Tables

theorem exec_protocolFault (s : State) (p : PortId) (y : List Symbol) :
    exec (.protocolFault p y) s = .next (s.receive p y) := rfl

/-- Settles O8: the symbols come to one frame, whose first failing test gives the cause of the fence. -/
theorem protocolFaultFences : Obligations.ProtocolFaultFences := by
  intro p l x y c rx s hreset hx hy
  have harrives : s.receive p y = (s.setReceiver p rx).takeFrame p l := by
    rcases hy with ⟨rfl, hl, rfl, -⟩ | ⟨-, hl, ⟨rfl, rfl | rfl⟩ | ⟨rfl, rfl⟩⟩
    · exact State.receive_whole hreset hx hl
    · exact (State.receive_short hreset hx hl).1 (Or.inl rfl)
    · exact (State.receive_short hreset hx hl).1 (Or.inr rfl)
    · exact (State.receive_short hreset hx hl).2 rfl
  have hfault : (s.setReceiver p rx).arrivalFault p l = some c := by
    rcases hy with ⟨-, hl, -, ⟨hcrc, rfl⟩ | ⟨hcrc, rfl, hkind⟩ | ⟨hcrc, rfl, hkind, htag⟩⟩ | ⟨rfl, hl, -⟩
    · exact State.arrivalFault_frameCheck p l fun _ => hcrc
    · rw [State.arrivalFault_of_checks hl hcrc]
      rcases hkind with hkind | ⟨hkind, haccess⟩
      · rw [if_pos hkind]
      · have h3 : byteAt l 0 ≠ 3 := fun h => by simp [h] at hkind
        rw [if_pos (⟨h3, haccess⟩ : _ ∧ _), ite_self]
    · have hkind' : byteAt l 0 ∈ [1, 2, 3] := by
        simp only [List.mem_cons, List.not_mem_nil, or_false] at hkind ⊢
        tauto
      have haccess : ¬ (byteAt l 0 ≠ 3 ∧ accessOf (byteAt l 7) = none) := by
        rintro ⟨h3, hnone⟩
        rcases hkind with h | ⟨-, hsome⟩
        · exact h3 h
        · rw [hnone] at hsome
          cases hsome
      have htag' : (s.setReceiver p rx).outstanding p (frameTag l) = true := htag
      rw [State.arrivalFault_of_checks hl hcrc, if_neg (not_not.mpr hkind'), if_neg haccess, if_pos htag']
    · exact State.arrivalFault_frameCheck p l fun h => by omega
  have hport : (s.setReceiver p rx).tables.port p = s.tables.port p := rfl
  rw [exec_protocolFault, harrives, State.takeFrame, hport, hfault]
  refine ⟨fun hstate => ⟨{ s.setReceiver p rx with tables := State.fence s.tables p c }, ?_, ?_⟩, fun hstate => ?_⟩
  · rw [if_neg (by rcases hstate with h | h <;> simp [h])]
    rfl
  · rw [Tables.fence_on _ _ _ hstate]
    refine ⟨pick_place_self _ _ _, fun p' hp => pick_place_ne _ _ _ _ hp, pick_place_self _ _ _,
      fun p' hp => pick_place_ne _ _ _ _ hp, rfl, rfl⟩
  · split
    · rfl
    · show Host.Outcome.next ({ s.setReceiver p rx with tables := State.fence s.tables p c } : State) = _
      rw [Tables.fence_off _ _ _ hstate]
      rfl

/-! ## The transmitter (R169) -/

theorem exec_transmissionStart (s : State) (p : PortId) :
    exec (.transmissionStart p) s = .next (s.startTransmission p) := rfl

theorem exec_transmissionEnd (s : State) (p : PortId) :
    exec (.transmissionEnd p) s = .next (s.endTransmission p) := rfl

theorem length_frameBytes (f : OutFrame) : f.bytes.length = 16 := by cases f <;> rfl

/-- The last two bytes of a frame are the CRC-16 of the first fourteen (R187). -/
theorem wordAt_withCrc (l : List Byte) (h : l.length = 14) :
    wordAt (withCrc l) 14 = crc16 ((withCrc l).take 14) := by
  have hword := wordAt_length_withCrc l
  have htake := take_length_withCrc l
  rw [h] at hword htake
  rw [hword, htake]

theorem frameCrc_frameBytes (f : OutFrame) : wordAt f.bytes 14 = crc16 (f.bytes.take 14) := by
  cases f <;> exact wordAt_withCrc _ rfl

namespace Tables

variable (T : Tables)

theorem frameSent_other (p p' : PortId) (k k' : Token) (x : BreakReason) (h : ¬ (p' = p ∧ k' = k)) :
    (State.frameSent T p (.broken k' x)).hold p' k = T.hold p' k := by
  have hother : ∀ e, (T.setHold p k' e).hold p' k = T.hold p' k := fun e => by
    rw [hold_setHold, if_neg fun heq => h ⟨heq.1, heq.2.symm⟩]
  unfold State.frameSent
  dsimp only
  cases T.hold p k' with
  | broken r w => exact hother _
  | empty | reserved | held y => rfl

/-- The start of a BROKEN frame is recorded in the BROKEN entry of its token (R59, R169). -/
theorem frameSent_self {T : Tables} {p : PortId} {k : Token} {r : BreakReason} {w : Bool} (x : BreakReason)
    (h : T.hold p k = .broken r w) : (State.frameSent T p (.broken k x)).hold p k = .broken r false := by
  simp [State.frameSent, h, hold_setHold]

theorem frameSent_of_not_broken {T : Tables} {p : PortId} {k : Token} (x : BreakReason)
    (h : ∀ r w, T.hold p k ≠ .broken r w) : State.frameSent T p (.broken k x) = T := by
  unfold State.frameSent
  dsimp only
  cases hk : T.hold p k with
  | broken r w => exact absurd hk (h r w)
  | empty | reserved | held y => rfl

theorem frameSent_rest (p : PortId) (f : OutFrame) : State.frameSent T p f = { T with holds := (State.frameSent T p f).holds } := by
  cases f with
  | answer g v => rfl
  | broken k r =>
    unfold State.frameSent
    dsimp only
    cases T.hold p k <;> rfl

end Tables

/-- Settles O10: the start of a frame at an IDLE transmitter, the end of one, and what the lane carries. -/
theorem transmitterSends : Obligations.TransmitterSends := by
  refine ⟨fun p s hidle => ⟨fun hq => ?_, fun f rest hq => ?_⟩, fun p s l hsending => ⟨fun hq => ?_, fun hq => ?_⟩,
    fun p s => ⟨fun hreset => ?_, fun hreset hidle => ?_⟩⟩
  · simp only [exec_transmissionStart, State.startTransmission, hidle, State.sendHead, hq]
  · have hsent := Tables.frameSent_rest (s.tables.setQueue p rest) p f
    refine ⟨(s.onTables fun T => State.frameSent (T.setQueue p rest) p f).setTransmitter p (.sending f.bytes), ?_,
      pick_place_self _ _ _, length_frameBytes f, fun hreset => ?_, frameCrc_frameBytes f,
      fun p' hp => pick_place_ne _ _ _ _ hp, ?_, fun p' hp => ?_, fun p' k => ?_, ?_⟩
    · simp only [exec_transmissionStart, State.startTransmission, hidle, State.sendHead, hq]
    · have hlane : pick ((s.onTables fun T => State.frameSent (T.setQueue p rest) p f).setTransmitter p
          (.sending f.bytes)).transmitters p = .sending f.bytes := pick_place_self _ _ _
      rw [State.outwardLane, hlane]
      exact if_neg (by simp [State.setTransmitter, hreset])
    · show (State.frameSent (s.tables.setQueue p rest) p f).queueOf p = rest
      rw [hsent]
      exact pick_place_self _ _ _
    · show (State.frameSent (s.tables.setQueue p rest) p f).queueOf p' = _
      rw [hsent]
      exact pick_place_ne _ _ _ _ hp
    · show (State.frameSent (s.tables.setQueue p rest) p f).hold p' k = _
      have hqueue : (s.tables.setQueue p rest).hold p' k = s.tables.hold p' k := rfl
      cases f with
      | answer g v => rfl
      | broken k' x =>
        by_cases hk : p' = p ∧ k' = k
        · obtain ⟨rfl, rfl⟩ := hk
          cases hh : s.tables.hold p' k' with
          | broken r w =>
            rw [Tables.frameSent_self x (hqueue.trans hh)]
            simp
          | empty | reserved | held y =>
            rw [Tables.frameSent_of_not_broken x (by rw [hqueue, hh]; exact fun r w => HoldEntry.noConfusion), hqueue, hh]
        · rw [Tables.frameSent_other _ p p' k k' x hk, hqueue]
          cases s.tables.hold p' k with
          | broken r w => simp [hk]
          | empty | reserved | held y => rfl
    · show ({ s with
        tables := State.frameSent (s.tables.setQueue p rest) p f
        transmitters := place s.transmitters p (.sending f.bytes) } : State) = _
      conv_lhs => rw [hsent]
      conv_rhs => rw [State.setTransmitter, State.onTables]
      rw [hsent]
      rfl
  · simp only [exec_transmissionEnd, State.endTransmission, hsending]
    have hq' : (s.setTransmitter p .idle).tables.queueOf p = [] := hq
    simp only [State.sendHead, hq']
    rfl
  · have hidle : pick ({ s with transmitters := place s.transmitters p .idle } : State).transmitters p = .idle :=
      pick_place_self _ _ _
    simp only [exec_transmissionEnd, State.endTransmission, hsending, exec_transmissionStart, State.startTransmission,
      hidle]
    rfl
  · exact if_pos hreset
  · rw [State.outwardLane, hidle]
    exact if_neg (by simp [hreset])

end Sys2Proof.Machine
end

section
/-! SUPPORT. The tests of a check in their order (R26, R31, R33): the first that fails gives the reason. -/

namespace Sys2Proof.Machine

open State

/-! ## The first test that fails -/

theorem firstDeny_cons (x : Option DenyReason) (l : List (Option DenyReason)) :
    firstDeny (x :: l) = x.or (firstDeny l) := by cases x <;> rfl

@[simp] theorem firstDeny_nil : firstDeny [] = none := rfl

theorem failsWith_eq (b : Bool) (r : DenyReason) : failsWith b r = if b = false then some r else none := by
  cases b <;> rfl

theorem ite_some_or (c : Prop) [Decidable c] (r : DenyReason) (x y : Option DenyReason) :
    (if c then some r else x).or y = if c then some r else x.or y := by split <;> rfl

theorem failsWith_or (b : Bool) (r : DenyReason) (x : Option DenyReason) :
    (failsWith b r).or x = if b = false then some r else x := by cases b <;> rfl

theorem portReason_or (p : PortState) (x : Option DenyReason) :
    (portReason p).or x = if p = .unbound then some .portUnbound else if p = .fenced then some .portFenced else x := by
  cases p <;> rfl

theorem stateReason_or (e : RecState) (x : Option DenyReason) :
    (stateReason e).or x =
      if e = .suspended then some .suspended
      else if e = .draining then some .revoked
      else if e = .damaged then some .damaged
      else if e = .free ∨ e = .pending then some .stale
      else x := by
  cases e <;> rfl

namespace State

variable {s : State}

theorem portDomainOpen_eq_false_iff (T : Tables) (p : PortId) :
    portDomainOpen T p = false ↔ ((T.portDomain p).map fun d => (T.domain d).state) ≠ some .opened := by
  unfold portDomainOpen
  split
  · next d hd => simp [hd]
  · next hd => simp [hd]

theorem staleTest_eq_false_iff (T : Tables) (i : Index) (g : Generation) : (!staleHandle T i g) = false ↔
    (T.entry i).state = .free ∨ (T.entry i).state = .pending ∨ (T.entry i).generation ≠ g := by
  rw [Bool.not_eq_false', staleHandle_eq_true_iff]

theorem domainAdmits_eq_false_iff (T : Tables) (p : PortId) (i : Index) : domainAdmits T p i = false ↔
    (T.entry i).domain ≠ some 15 ∧ ((T.entry i).domain = none ∨ (T.entry i).domain ≠ T.portDomain p) := by
  rw [domainAdmits, decide_eq_false_iff_not, not_or, not_and_or, Bool.not_eq_true, Option.isSome_eq_false_iff,
    Option.isNone_iff_eq_none]
  rfl

theorem clearingTest_eq_false_iff : decide (s.partState ≠ .clearing) = false ↔ s.partState = .clearing := by simp

theorem indexTest_eq_false_iff (i : Index) : decide (i.val ≠ 0) = false ↔ i = 0 := by
  rw [decide_eq_false_iff_not, not_not, val_eq_zero_iff]

theorem lowestEmpty_eq_none_iff (T : Tables) (p : PortId) : lowestEmpty T p = none ↔ ∀ t, T.hold p t ≠ .empty := by
  have hall : ∀ t : Token, t ∈ allTokens := by decide
  simp only [lowestEmpty, List.find?_eq_none, decide_eq_true_eq]
  exact ⟨fun h t => h t (hall t), fun h t _ => h t⟩

theorem roomReason_eq (T : Tables) (p : PortId) (k : CheckKind) :
    roomReason T p k = if k = .hold ∧ ∀ t, T.hold p t ≠ .empty then some .holdFull else none := by
  cases k with
  | probe => rfl
  | hold =>
    rw [roomReason, failsWith_eq]
    simp only [Option.isSome_eq_false_iff, Option.isNone_iff_eq_none, lowestEmpty_eq_none_iff, true_and]

/-- The tests of acceptance screening, in the order of R26. -/
theorem screenReason_eq (s : State) (p : PortId) (r : CheckRequest) :
    s.screenReason p r =
      (let e := s.tables.entry r.index
       if (s.tables.port p).state = .unbound then some DenyReason.portUnbound
       else if (s.tables.port p).state = .fenced then some .portFenced
       else if s.partState = .clearing then some .clearing
       else if ((s.tables.portDomain p).map fun d => (s.tables.domain d).state) ≠ some .opened then
         some .domainClosed
       else if r.index = 0 then some .badIndex
       else if e.state = .free ∨ e.state = .pending ∨ e.generation ≠ r.generation then some .stale
       else if e.domain ≠ some 15 ∧ (e.domain = none ∨ e.domain ≠ s.tables.portDomain p) then some .foreign
       else if e.state = .suspended then some .suspended
       else if e.state = .draining then some .revoked
       else if e.state = .damaged then some .damaged
       else if r.kind = .hold ∧ ∀ t, s.tables.hold p t ≠ .empty then some .holdFull
       else none) := by
  simp only [screenReason, statusTests, List.take_succ_cons, List.take_zero, List.drop_succ_cons, List.drop_zero,
    List.cons_append, List.nil_append, firstDeny_cons, firstDeny_nil, portReason_or, failsWith_or, stateReason_or,
    Option.or_none, clearingTest_eq_false_iff, portDomainOpen_eq_false_iff, indexTest_eq_false_iff,
    staleTest_eq_false_iff, domainAdmits_eq_false_iff, roomReason_eq]
  by_cases hstale : (s.tables.entry r.index).state = .free ∨ (s.tables.entry r.index).state = .pending ∨
      (s.tables.entry r.index).generation ≠ r.generation
  · simp only [if_pos hstale]
  · have hstate : ¬ ((s.tables.entry r.index).state = .free ∨ (s.tables.entry r.index).state = .pending) := by tauto
    simp only [if_neg hstale, if_neg hstate]

end State

/-! ## A CHECK frame (R26 to R29) -/

theorem exec_checkCommand {s : State} {p : PortId} {k : CheckKind} {f : CheckFrame} {a : Access} (h : s.hears p)
    (hp : (s.tables.port p).state ≠ .resetting) (ha : accessOf f.accessByte = some a)
    (ht : s.outstanding p f.tag = false) :
    exec (checkCommand k p f) s =
      .next (s.screen p f.tag ⟨k, f.index, f.generation, f.clearance, a, f.offset, f.length⟩) := by
  rw [← checkRequest_checkBytes, ← receive_check s p k a f h.1 h.2 hp ha ht]
  cases k <;> rfl

/-- Settles O5: the model's tests in their order are those of R26. -/
theorem screeningDenies : Obligations.ScreeningDenies := by
  intro k p f s r h hp ha ht hr
  obtain ⟨a, ha⟩ := Option.isSome_iff_exists.mp ha
  rw [exec_checkCommand h hp ha ht, State.screen, State.screenReason_eq]
  simp only [hr]
  rfl

end Sys2Proof.Machine
end

section
/-! SUPPORT. The decision of a check (R31, R33 to R38): the early tests, then those of the decision on the bodies read. -/

namespace Sys2Proof.Machine

open State

namespace State

variable {s : State}

/-- `j` is the index of the DATA record that the check concerns. -/
def Concerns (x : CheckSlot) (j : Index) : Prop :=
  (x.kind = .dataKind → j = x.named.index) ∧ (x.kind = .aliasKind → x.target = some j)

theorem Concerns.index {x : CheckSlot} {j : Index} (h : Concerns x j) : dataIndexOf x = j := by
  unfold dataIndexOf
  split
  · next hk => exact (h.1 hk).symm
  · next hk => rw [h.2 hk]; rfl

theorem targetReason_of_data {x : CheckSlot} (h : x.kind = .dataKind) : s.targetReason x = none := by
  simp [targetReason, h]

theorem targetReason_of_alias {x : CheckSlot} {j : Index} (h : x.kind = .aliasKind) (ht : x.target = some j) :
    s.targetReason x = stateReason (s.tables.entry j).state := by
  simp [targetReason, h, ht]

/-- The tests on the status of the named record, and then others. -/
theorem firstDeny_statusTests (s : State) (p : PortId) (i : Index) (g : Generation) (l : List (Option DenyReason)) :
    firstDeny (s.statusTests p i g ++ l) =
      (let e := s.tables.entry i
       if s.partState = .clearing then some .clearing
       else if ((s.tables.portDomain p).map fun d => (s.tables.domain d).state) ≠ some .opened then
         some .domainClosed
       else if e.state = .free ∨ e.state = .pending ∨ e.generation ≠ g then some .stale
       else if e.domain ≠ some 15 ∧ (e.domain = none ∨ e.domain ≠ s.tables.portDomain p) then some .foreign
       else if e.state = .suspended then some .suspended
       else if e.state = .draining then some .revoked
       else if e.state = .damaged then some .damaged
       else firstDeny l) := by
  simp only [statusTests, List.cons_append, List.nil_append, firstDeny_cons, failsWith_or, stateReason_or,
    clearingTest_eq_false_iff, portDomainOpen_eq_false_iff, staleTest_eq_false_iff, domainAdmits_eq_false_iff]
  by_cases hstale : (s.tables.entry i).state = .free ∨ (s.tables.entry i).state = .pending ∨
      (s.tables.entry i).generation ≠ g
  · simp only [if_pos hstale]
  · have hstate : ¬ ((s.tables.entry i).state = .free ∨ (s.tables.entry i).state = .pending) := by tauto
    simp only [if_neg hstale, if_neg hstate]

/-- The early tests in the order of R31, and then others: for a direct check the DATA record has been tested already
as the named one. -/
theorem firstDeny_earlyTests {p : PortId} {x : CheckSlot} {j : Index} (h : Concerns x j)
    (l : List (Option DenyReason)) :
    firstDeny (s.earlyTests p x ++ l) = (s.earlyDeny p x x.named.index j (codesAgree x)).or (firstDeny l) := by
  rw [earlyTests, List.append_assoc, firstDeny_statusTests]
  simp only [List.cons_append, List.nil_append, firstDeny_cons, failsWith_or, earlyDeny, ite_some_or, Option.none_or]
  cases hk : x.kind with
  | aliasKind => simp only [targetReason_of_alias hk (h.2 hk), stateReason_or]
  | dataKind =>
    rw [targetReason_of_data hk, Option.none_or, h.1 hk]
    by_cases hstale : (s.tables.entry x.named.index).state = .free ∨ (s.tables.entry x.named.index).state = .pending ∨
        (s.tables.entry x.named.index).generation ≠ x.request.generation
    · simp only [if_pos hstale]
    · have hstate : ¬ ((s.tables.entry x.named.index).state = .free ∨
          (s.tables.entry x.named.index).state = .pending) := by tauto
      simp only [if_neg hstale, if_neg hstate]
      by_cases hsuspended : (s.tables.entry x.named.index).state = .suspended
      · simp only [if_pos hsuspended]
      by_cases hdraining : (s.tables.entry x.named.index).state = .draining
      · simp only [if_neg hsuspended, if_pos hdraining]
      by_cases hdamaged : (s.tables.entry x.named.index).state = .damaged
      · simp only [if_neg hsuspended, if_neg hdraining, if_pos hdamaged]
      simp only [if_neg hsuspended, if_neg hdraining, if_neg hdamaged]

/-- The check codes are the last of the early tests. -/
theorem earlyDeny_eq (p : PortId) (x : CheckSlot) (n j : Index) (agreed : Bool) :
    s.earlyDeny p x n j agreed = (s.earlyDeny p x n j true).or (failsWith agreed .damaged) := by
  simp only [earlyDeny, ite_some_or, Option.none_or, failsWith_eq, Bool.true_eq_false, if_false]

/-- With a read that did not agree the reason is that of an earlier test, or DAMAGED. -/
theorem earlyDeny_false (p : PortId) (x : CheckSlot) (n j : Index) :
    s.earlyDeny p x n j false = some ((s.earlyDeny p x n j true).getD .damaged) := by
  rw [earlyDeny_eq]
  cases s.earlyDeny p x n j true <;> rfl

/-! ## The tests on the bodies (R35 to R38) -/

theorem clearancePasses_eq_false_iff {x : CheckSlot} {b : Body} (h : namedBody x = some b) :
    clearancePasses x = false ↔ x.clearance < b.floor := by
  simp [clearancePasses, h]

theorem rangePasses_eq_false_iff {x : CheckSlot} {b : Body} (h : namedBody x = some b) :
    rangePasses x = false ↔ x.request.length.toNat = 0 ∨ 4096 < x.request.length.toNat ∨
      b.extent.toNat < x.request.offset.toNat + x.request.length.toNat := by
  simp only [rangePasses, h, Option.any_some, decide_eq_false_iff_not]
  omega

theorem rightsInForce_has {x : CheckSlot} {b d : Body} (a : Access) (h : namedBody x = some b)
    (hd : dataBodyOf x = some d) : (rightsInForce x).has a = (b.rights.has a && d.rights.has a) := by
  simp only [rightsInForce, h, hd]
  cases a <;> rfl

theorem pinPasses_eq_false_iff {T : Tables} {x : CheckSlot} {j : Index} (h : dataIndexOf x = j) :
    pinPasses T x = false ↔ x.request.kind = .hold ∧ (15 ≤ (T.entry x.named.index).pins ∨ 15 ≤ (T.entry j).pins) := by
  unfold pinPasses
  split
  · next hk => simp [hk]
  · next hk =>
    simp only [hk, h, pinsFull, Bool.not_eq_false', Bool.or_eq_true, decide_eq_true_eq, true_and]
    exact Iff.rfl

theorem contentionPasses_eq_false_iff {T : Tables} {x : CheckSlot} {j : Index} {d : DataBody}
    (h : dataIndexOf x = j) (hd : dataBodyOf x = some (.dataBody d)) :
    contentionPasses T x = false ↔ x.request.access = .write ∧ d.sharing = .sole ∧ (T.entry j).writer ≠ none := by
  unfold contentionPasses
  split
  · next ha => simp [ha]
  · next ha => simp [ha, h, hd, Body.sharing, Option.isSome_iff_ne_none]

theorem or_eq_ite (x y : Option DenyReason) : x.or y = if x ≠ none then x else y := by cases x <;> rfl

/-- The decision where every read agreed: the tests on the bodies follow the early ones. -/
theorem decisionReason_of_agreed {p : PortId} {x : CheckSlot} {nb : Body} {d : DataBody} {j : Index}
    (hj : Concerns x j) (hnb : namedBody x = some nb) (hd : dataBodyOf x = some (.dataBody d))
    (hcodes : codesAgree x = true) : s.decisionReason p x = s.decisionTests p x x.named.index nb j d := by
  rw [decisionReason, firstDeny_earlyTests hj, hcodes, or_eq_ite, decisionTests]
  simp only [firstDeny_cons, firstDeny_nil, failsWith_or, clearancePasses_eq_false_iff hnb,
    rangePasses_eq_false_iff hnb, rightsInForce_has _ hnb hd, pinPasses_eq_false_iff hj.index,
    contentionPasses_eq_false_iff hj.index hd]
  rfl

/-- The decision where a read did not agree. -/
theorem decisionReason_of_mismatch {p : PortId} {x : CheckSlot} {j : Index} (hj : Concerns x j)
    (hcodes : codesAgree x = false) : s.decisionReason p x = s.earlyDeny p x x.named.index j false := by
  rw [decisionReason, firstDeny_earlyTests hj, hcodes, earlyDeny_false]
  rfl

theorem codesAgree_of_one {x : CheckSlot} {r : ReadResult} (h : x.named.result = some r) (ht : x.targetRead = none) :
    codesAgree x = r.agreed := by
  simp [codesAgree, readsOf, h, ht]

theorem codesAgree_of_two {x : CheckSlot} {r r' : ReadResult} {tr : ReadRecord} (h : x.named.result = some r)
    (ht : x.targetRead = some tr) (hr' : tr.result = some r') : codesAgree x = (r.agreed && r'.agreed) := by
  simp [codesAgree, readsOf, h, ht, hr']

end State

/-- Settles O31: the two kinds of check where every read agreed, and the three ways in which one did not. -/
theorem decisionFollowsOrder : Obligations.DecisionFollowsOrder := by
  refine ⟨fun s p x d c => ⟨fun hk ht hr => ?_, fun j a c' g hk ht hr htr => ?_⟩, fun s p x j r hr h => ?_⟩
  · refine State.decisionReason_of_agreed ⟨fun _ => rfl, fun h => by simp [hk] at h⟩ (by simp [namedBody, hr])
      (by simp [dataBodyOf, hk, namedBody, hr]) (State.codesAgree_of_one hr ht)
  · refine State.decisionReason_of_agreed ⟨fun h => by simp [hk] at h, fun _ => ht⟩ (by simp [namedBody, hr])
      (by simp [dataBodyOf, hk, htr]) (State.codesAgree_of_two hr htr rfl)
  · have hcodes : Concerns x j ∧ codesAgree x = false := by
      rcases h with ⟨hk, ht, rfl, hagreed⟩ | ⟨hk, htarget, ht, hagreed⟩ | ⟨tr, r', hk, htarget, ht, hr', hagreed⟩
      · exact ⟨⟨fun _ => rfl, fun h => by simp [hk] at h⟩, (State.codesAgree_of_one hr ht).trans hagreed⟩
      · exact ⟨⟨fun h => by simp [hk] at h, fun _ => htarget⟩, (State.codesAgree_of_one hr ht).trans hagreed⟩
      · refine ⟨⟨fun h => by simp [hk] at h, fun _ => htarget⟩, (State.codesAgree_of_two hr ht hr').trans ?_⟩
        rcases hagreed with h | h <;> simp [h]
    have hearly := State.decisionReason_of_mismatch (s := s) (p := p) hcodes.1 hcodes.2
    exact ⟨hearly, hearly.trans (State.earlyDeny_false p x _ j)⟩

end Sys2Proof.Machine
end

section
/-! SUPPORT. What each operation over the tables leaves of every status entry. -/

namespace Sys2Proof.Machine.Tables

variable (T : Tables)

/-! ## One write of an entry -/

/-- A change that leaves the blank entry as it is acts on every index alike. -/
theorem entry_modEntry_blank (i j : Index) (f : StatusEntry → StatusEntry) (hf : f .blank = .blank) :
    (T.modEntry i f).entry j = if j = i then f (T.entry j) else T.entry j := by
  rw [entry_modEntry]
  by_cases h0 : i = 0
  · subst h0
    by_cases hj : j = 0 <;> simp [hj, hf]
  · simp [h0]

theorem entry_pinDown (i j : Index) :
    (T.pinDown i).entry j = { T.entry j with pins := if j = i then (T.entry j).pins - 1 else (T.entry j).pins } := by
  unfold pinDown
  rw [entry_modEntry_blank _ _ _ _ rfl]
  split_ifs <;> rfl

theorem entry_setWriter_none (i j : Index) :
    (T.setWriter i none).entry j = { T.entry j with writer := if j = i then none else (T.entry j).writer } := by
  unfold setWriter
  rw [entry_modEntry_blank _ _ _ _ rfl]
  split_ifs <;> rfl

/-! ## The end of a hold (R55) -/

theorem unpin_entry (p : PortId) (t : Token) (h : HeldHold) (next : HoldEntry) (j : Index) :
    (T.unpin p t h next).entry j = { T.entry j with
      pins := if j = h.index ∨ j = h.resolved then (T.entry j).pins - 1 else (T.entry j).pins
      writer := if j = h.resolved ∧ h.access = .write then none else (T.entry j).writer } := by
  have hdrop : ∀ T : Tables, (T.dropPins h).entry j = { T.entry j with
      pins := if j = h.index ∨ j = h.resolved then (T.entry j).pins - 1 else (T.entry j).pins } := by
    intro T
    unfold dropPins
    dsimp only
    split_ifs with he hj hj
    · rw [entry_pinDown, if_pos (by rcases hj with hj | hj; exacts [hj, hj.trans he])]
    · rw [entry_pinDown, if_neg fun e => hj (Or.inl e)]
    · rw [entry_pinDown, entry_pinDown]
      rcases hj with hj | hj
      · rw [if_pos hj, if_neg fun e => he (e.symm.trans hj)]
      · rw [if_pos hj, if_neg fun e => he (hj.symm.trans e)]
    · rw [entry_pinDown, entry_pinDown, if_neg fun e => hj (Or.inr e), if_neg fun e => hj (Or.inl e)]
  unfold unpin
  dsimp only
  rw [setHold_entry]
  by_cases hw : h.access = .write
  · rw [if_pos hw, entry_setWriter_none, hdrop]
    simp only [hw, and_true]
    rfl
  · rw [if_neg hw, hdrop]
    simp only [hw, and_false, if_false]
    rfl

theorem breakUnpin_entry (reason : BreakReason) (p : PortId) (t : Token) (h : HeldHold) (j : Index) :
    (T.breakUnpin reason p t h).entry j = { T.entry j with
      pins := if j = h.index ∨ j = h.resolved then (T.entry j).pins - 1 else (T.entry j).pins
      writer := if j = h.resolved ∧ h.access = .write then none else (T.entry j).writer } := by
  unfold breakUnpin
  dsimp only
  split
  · rw [placeFrame_entry, unpin_entry]
  · rw [unpin_entry]

theorem unpin_rest (p : PortId) (t : Token) (h : HeldHold) (next : HoldEntry) :
    T.unpin p t h next = { T with
      rst := (T.unpin p t h next).rst
      holds := (T.unpin p t h next).holds
      fillOrder := T.fillOrder.erase (p, t) } := by
  have hdrop : ∀ T : Tables, T.dropPins h = { T with rst := (T.dropPins h).rst } := by
    intro T
    unfold dropPins pinDown
    dsimp only
    split_ifs
    · rw [modEntry_rest]
    · rw [modEntry_rest, modEntry_rest T]
  have hset : ∀ T : Tables, T.setWriter h.resolved none = { T with rst := (T.setWriter h.resolved none).rst } :=
    fun T => modEntry_rest T _ _
  unfold unpin
  dsimp only
  split
  · rw [hset, hdrop]
    rfl
  · rw [hdrop]
    rfl

theorem breakUnpin_rest (reason : BreakReason) (p : PortId) (t : Token) (h : HeldHold) :
    T.breakUnpin reason p t h = { T with
      rst := (T.breakUnpin reason p t h).rst
      holds := (T.breakUnpin reason p t h).holds
      fillOrder := T.fillOrder.erase (p, t)
      outbound := (T.breakUnpin reason p t h).outbound } := by
  unfold breakUnpin
  dsimp only
  split
  · unfold placeFrame setQueue
    rw [unpin_rest]
  · rw [unpin_rest]

/-! ## A reason raised -/

theorem raiseRecord_entries (i : Index) (r : RecReason) (j : Index) :
    (T.raiseRecord i r).entry j = if j = i ∧ (T.entry i).state ≠ .free then { T.entry j with
        reasons := (T.entry j).reasons.add r
        noticeGen := if (T.entry j).reasons.isEmpty then some (T.entry j).generation else (T.entry j).noticeGen }
      else T.entry j := by
  by_cases hf : (T.entry i).state = .free
  · rw [raiseRecord_free T i r hf]
    simp [hf]
  · by_cases hj : j = i
    · subst hj
      simp [raiseRecord_entry T j r hf, hf]
    · rw [raiseRecord_entry_ne T i j r hj, if_neg fun e => hj e.1]

theorem raiseRecord_rest (i : Index) (r : RecReason) :
    T.raiseRecord i r = { T with rst := (T.raiseRecord i r).rst, notices := (T.raiseRecord i r).notices } := by
  unfold raiseRecord
  dsimp only
  split_ifs
  · rfl
  · rw [setEntry_rest]
  · rw [setEntry_rest]

/-! ## A record freed (R15) -/

/-- Steps 1 to 5 of R15 without the test of the target: FREE, uncounted, and gone from its target's list. -/
def freed (T : Tables) (i : Index) : Tables :=
  match (T.entry i).target with
  | some t => (T.makeFree i).leaveTarget i t
  | none => T.makeFree i

theorem becomeFree_eq (skip : Option Index) (i : Index) : becomeFree skip T i =
    (match (T.entry i).target with
      | some t => testTarget skip (T.freed i) t
      | none => T.freed i).joinOrPark i := by
  unfold becomeFree freed
  cases (T.entry i).target <;> rfl

theorem countDownOf_entry (d : Option DomainId) (j : Index) : (T.countDownOf d).entry j = T.entry j := by
  cases d <;> rfl

theorem makeFree_entries (i j : Index) (hi : i ≠ 0) :
    (T.makeFree i).entry j = if j = i then { StatusEntry.freeAt ((T.entry i).generation + 1) with
      reasons := (T.entry i).reasons, noticeGen := (T.entry i).noticeGen } else T.entry j := by
  unfold makeFree
  dsimp only
  rw [entry_setEntry, countDownOf_entry]
  simp [hi]

theorem freed_entry (i j : Index) (hi : i ≠ 0) :
    (T.freed i).entry j = if j = i then { StatusEntry.freeAt ((T.entry i).generation + 1) with
        reasons := (T.entry i).reasons, noticeGen := (T.entry i).noticeGen }
      else if (T.entry i).target = some j then
        { T.entry j with aliases := (T.entry j).aliases.erase i }
      else T.entry j := by
  unfold freed
  split
  · rename_i t ht
    rw [leaveTarget_entry, makeFree_entries T i j hi]
    by_cases hj : j = i
    · subst hj
      simp [StatusEntry.freeAt]
    · by_cases htj : t = j <;> simp [hj, ht, htj, eq_comm]
  · rename_i ht
    rw [makeFree_entries T i j hi]
    simp [ht]

theorem makeFree_rest (i : Index) :
    T.makeFree i = { T with rst := (T.makeFree i).rst, domains := (T.countDownOf (T.entry i).domain).domains } := by
  unfold makeFree
  dsimp only
  rw [setEntry_rest]
  cases (T.entry i).domain <;> rfl

theorem freed_rest (i : Index) :
    T.freed i = { T with rst := (T.freed i).rst, domains := (T.countDownOf (T.entry i).domain).domains } := by
  unfold freed
  split
  · unfold leaveTarget
    rw [modEntry_rest, makeFree_rest]
  · rw [makeFree_rest]

theorem joinOrPark_entry (i j : Index) : (T.joinOrPark i).entry j = T.entry j := by
  unfold joinOrPark
  split <;> rfl

theorem joinOrPark_rest (i : Index) : T.joinOrPark i = { T with freeList := (T.joinOrPark i).freeList } := by
  unfold joinOrPark
  split <;> rfl

/-- A target that completes is freed as any record is, its own target being absent (R13, R15 step 4). -/
theorem testTarget_eq (skip : Option Index) (t : Index) (ht : (T.entry t).target = none) :
    testTarget skip T t = if skip ≠ some t ∧ completes (T.entry t) = true then
      ((T.raiseRecord t .drained).freed t).joinOrPark t else T := by
  unfold testTarget
  have hnone : ((T.raiseRecord t .drained).entry t).target = none := by
    rw [raiseRecord_entries]
    split <;> exact ht
  split
  · unfold freed
    rw [hnone]
  · rfl

/-! ## The expiry queue -/

theorem leaveQueue_rest (i : Index) : T.leaveQueue i = { T with
    rst := (T.leaveQueue i).rst, expiryQueue := T.expiryQueue.filter fun x => x.2 != i } := by
  unfold leaveQueue
  rw [modEntry_rest]

theorem enterQueue_entry (i j : Index) (d : Epoch) (hi : i ≠ 0) :
    (T.enterQueue i d).entry j = if j = i then { T.entry j with deadline := some d } else T.entry j := by
  unfold enterQueue
  dsimp only
  rw [entry_modEntry]
  change (if j = i ∧ i ≠ 0 then { (T.leaveQueue i).entry j with deadline := some d } else
    (T.leaveQueue i).entry j) = _
  rw [leaveQueue_entry]
  by_cases hj : j = i <;> simp [hj, hi]

theorem enterQueue_rest (i : Index) (d : Epoch) : T.enterQueue i d = { T with
    rst := (T.enterQueue i d).rst
    expiryQueue := insertDue d i (T.expiryQueue.filter fun x => x.2 != i) } := by
  unfold enterQueue
  dsimp only
  rw [modEntry_rest, leaveQueue_rest]

end Sys2Proof.Machine.Tables
end

section
/-! SUPPORT. A job joins its bank's queue or its issuer waits there (R143, R151, R152): the check that reads, the
establishes that take the free-list head, and an AMEND at its acceptance. -/

namespace Sys2Proof.Machine

open State

namespace State

variable {s : State}

/-! ## Asking for a place (R143, R151, R152) -/

theorem queue_joinQueue (s : State) (job : Job) :
    ((s.joinQueue job).bank (bankOf job.index)).queue = (s.bank (bankOf job.index)).queue ++ [job] := by
  unfold joinQueue
  dsimp only
  split
  · rw [(queue_choicePoint _ _ _).1, bank_setBank, if_pos rfl]
  · rw [bank_setBank, if_pos rfl]

theorem isIdle_iff (c : Controller) : isIdle c = true ↔ c = .idleClosed ∨ c = .idleOpen := by cases c <;> decide

theorem jobJoins_joinQueue (s : State) (job : Job) : JobJoins s (s.joinQueue job) job := by
  let k : Bank := { s.bank (bankOf job.index) with queue := (s.bank (bankOf job.index)).queue ++ [job] }
  have hk : (s.setBank (bankOf job.index) k).bank (bankOf job.index) = k := by rw [bank_setBank, if_pos rfl]
  have hother : ∀ b, b ≠ bankOf job.index → (s.setBank (bankOf job.index) k).bank b = s.bank b := fun b hb => by
    rw [bank_setBank, if_neg hb]
  have hbodies : s.PagesClean → SameBodies s (s.setBank (bankOf job.index) k) := fun hp =>
    sameBodies_setBank s _ _ hp rfl
  have hjoin : s.joinQueue job = if isIdle k.controller = true then
      (s.setBank (bankOf job.index) k).choicePoint (bankOf job.index) else s.setBank (bankOf job.index) k := rfl
  rw [hjoin]
  by_cases hidle : isIdle k.controller = true
  · rw [if_pos hidle]
    refine ⟨fun b hb => ((queue_choicePoint _ _ _).2 hb).trans (hother b hb), fun hwork => ?_, fun _ => ?_, fun hp => ?_⟩
    · rw [isIdle_iff] at hidle
      rcases hwork with h | h <;> rcases hidle with h' | h' <;> exact absurd (h.symm.trans h') (by decide)
    · have hmade := choiceMade_choicePoint (s.setBank (bankOf job.index) k) (bankOf job.index)
      rw [hk] at hmade
      exact hmade
    · exact ((hbodies hp).comp (sameBodies_choicePoint _ _ (hbodies hp).clean)).cells
  · rw [if_neg hidle]
    exact ⟨hother, fun _ => hk, fun h => absurd ((isIdle_iff _).mpr h) hidle, fun hp => (hbodies hp).cells⟩

theorem hasPlace_iff (s : State) (job : Job) :
    s.hasPlace job = true ↔ (s.bank (bankOf job.index)).queue.length < 12 := decide_eq_true_iff

theorem setSlotPhase_of_slot {p : PortId} {g : Tag} {x : CheckSlot} (ph : SlotPhase) (h : s.slot p g = some x) :
    s.setSlotPhase p g ph = s.setSlot p g (some { x with phase := ph }) := by
  unfold setSlotPhase
  rw [h]

@[simp] theorem setSlot_setSlot (s : State) (p : PortId) (g : Tag) (x y : Option CheckSlot) :
    (s.setSlot p g x).setSlot p g y = s.setSlot p g y := by
  simp [setSlot]

@[simp] theorem slot_setSlot_self (s : State) (p : PortId) (g : Tag) (x : Option CheckSlot) :
    (s.setSlot p g x).slot p g = x := by
  rw [slot_setSlot, if_pos ⟨rfl, rfl⟩]

theorem slot_setSlot_other (s : State) {p p' : PortId} {g g' : Tag} (x : Option CheckSlot) (h : p' ≠ p ∨ g' ≠ g) :
    (s.setSlot p g x).slot p' g' = s.slot p' g' := by
  rw [slot_setSlot, if_neg fun heq => h.elim (fun hp => hp heq.1) fun hg => hg heq.2]

theorem joinQueue_tables (s : State) (job : Job) : (s.joinQueue job).tables = s.tables := by rw [joinQueue_rest]

theorem joinQueue_slot (s : State) (job : Job) (p : PortId) (g : Tag) : (s.joinQueue job).slot p g = s.slot p g := by
  rw [joinQueue_rest]
  rfl

theorem askSlot_place {p : PortId} {g : Tag} {x : CheckSlot} {job : Job} (h : s.slot p g = some x)
    (hplace : (s.bank (bankOf job.index)).queue.length < 12) :
    s.askSlot p g job = (s.setSlot p g (some { x with phase := .reading })).joinQueue job := by
  rw [askSlot, if_pos ((hasPlace_iff s job).mpr hplace), setSlotPhase_of_slot _ h]

theorem askSlot_full {p : PortId} {g : Tag} {x : CheckSlot} {job : Job} (h : s.slot p g = some x)
    (hfull : 12 ≤ (s.bank (bankOf job.index)).queue.length) :
    s.askSlot p g job = (s.setSlot p g (some { x with phase := .admitting })).setBank (bankOf job.index)
      { s.bank (bankOf job.index) with
        slotsWaiting := place (s.bank (bankOf job.index)).slotsWaiting p
          (pick (s.bank (bankOf job.index)).slotsWaiting p ++ [g]) } := by
  rw [askSlot, if_neg fun hplace => absurd ((hasPlace_iff s job).mp hplace) (by omega), setSlotPhase_of_slot _ h]

theorem askEngine_place {e : Progress} {job : Job} (h : s.engine = some e)
    (hplace : (s.bank (bankOf job.index)).queue.length < 12) :
    s.askEngine job =
      State.joinQueue { s with engine := some { e with phase := .job, jobs := e.jobs ++ [⟨job, none⟩] } } job := by
  have hplace' : ({ s with engine := s.engine.map fun (e : Progress) =>
      { e with jobs := e.jobs ++ [⟨job, none⟩] } } : State).hasPlace job = true := (hasPlace_iff s job).mpr hplace
  rw [askEngine, if_pos hplace', h]
  rfl

theorem askEngine_full {e : Progress} {job : Job} (h : s.engine = some e)
    (hfull : 12 ≤ (s.bank (bankOf job.index)).queue.length) :
    s.askEngine job = { s with
      engine := some { e with phase := .admitting, jobs := e.jobs ++ [⟨job, none⟩] }
      banks := place s.banks (bankOf job.index) { s.bank (bankOf job.index) with engineWaiting := some job } } := by
  have hplace' : ¬ ({ s with engine := s.engine.map fun (e : Progress) =>
      { e with jobs := e.jobs ++ [⟨job, none⟩] } } : State).hasPlace job = true := fun hplace =>
    absurd ((hasPlace_iff s job).mp hplace) (by omega)
  rw [askEngine, if_neg hplace', h]
  rfl

/-! ## A check that passes its screening (R27 to R29) -/

theorem find?_allTokens {P : Token → Bool} {t : Token} (ht : P t = true) (hlow : ∀ u < t, P u = false) :
    allTokens.find? P = some t := by
  have hsplit : ∀ n : Token, allTokens = allTokens.take n.val ++ n :: allTokens.drop (n.val + 1) := by decide
  have hlt : ∀ n : Token, ∀ m ∈ allTokens.take n.val, m < n := by decide
  refine List.find?_eq_some_iff_append.mpr ⟨ht, _, _, hsplit t, fun u hu => ?_⟩
  rw [hlow u (hlt t u hu)]
  rfl

theorem lowestEmpty_eq_some {T : Tables} {p : PortId} {t : Token} (ht : T.hold p t = .empty)
    (hlow : ∀ u < t, T.hold p u ≠ .empty) : lowestEmpty T p = some t :=
  find?_allTokens (decide_eq_true ht) fun u hu => decide_eq_false (hlow u hu)

theorem effectiveClearance_eq {T : Tables} {p : PortId} {b : Binding} (h : (T.port p).binding = some b)
    (c : Clearance) : effectiveClearance T p c = min c b.maxClearance := by
  unfold effectiveClearance
  rw [h, min_def]

/-- The screening of a request that passes its tests: it reserves, occupies its slot and asks for its read. -/
theorem screen_of_passes {p : PortId} {g : Tag} {r : CheckRequest} (h : s.screenReason p r = none) :
    s.screen p g r = ((s.onTables fun T => reserve T p (s.newSlot p r).token).setSlot p g
      (some (s.newSlot p r))).askSlot p g
        (.bodyRead (s.newSlot p r).named.index (s.newSlot p r).named.generation (.slot p g)) := by
  rw [screen, h]

end State

/-- Settles O6: the tests of R26 pass, and the read joins the queue or its slot waits. -/
theorem checkIsScreenedAndReads : Obligations.CheckIsScreenedAndReads := by
  intro kd p f a s bnd k tok h hport ha ht hclearing hopen h0 hlive hgen hdomain hkind htok job bank slot reserved
  have hactive : (s.tables.port p).state = .active := by rw [hport]
  have hbound : (s.tables.port p).binding = some bnd := by rw [hport]
  have hpd : s.tables.portDomain p = some bnd.domain := by
    rw [Tables.portDomain, hbound]
    rfl
  have htoken : State.reservedToken s.tables p kd = tok := by
    rcases htok with ⟨rfl, rfl⟩ | ⟨rfl, t', rfl, hempty, hlow⟩
    · rfl
    · exact State.lowestEmpty_eq_some hempty hlow
  have hpasses : s.screenReason p ⟨kd, f.index, f.generation, f.clearance, a, f.offset, f.length⟩ = none := by
    have hroom : ¬ (kd = .hold ∧ ∀ t, s.tables.hold p t ≠ .empty) := by
      rintro ⟨rfl, hfull⟩
      rcases htok with ⟨hprobe, -⟩ | ⟨-, t', -, hempty, -⟩
      · cases hprobe
      · exact hfull t' hempty
    rw [State.screenReason_eq]
    simp only [hactive, hclearing, hpd, Option.map_some, hopen, h0, hlive, hgen, if_neg hroom]
    rcases hdomain with hd | hd <;> simp [hd]
  have hnew : s.newSlot p ⟨kd, f.index, f.generation, f.clearance, a, f.offset, f.length⟩ = slot .reading := by
    simp only [State.newSlot, State.effectiveClearance_eq hbound, htoken, hkind, hgen, Option.getD_some, slot]
  have hreserve : State.reserve s.tables p tok = reserved := by
    cases tok <;> rfl
  have hexec := exec_checkCommand (k := kd) h (by rw [hactive]; decide) ha ht
  rw [State.screen_of_passes hpasses, hnew] at hexec
  have hstate : ((s.onTables fun T => State.reserve T p (slot .reading).token).setSlot p f.tag (some (slot .reading))) =
      State.setSlot { s with tables := reserved } p f.tag (some (slot .reading)) :=
    congrArg (fun T => State.setSlot { s with tables := T } p f.tag (some (slot .reading))) hreserve
  have hjob : Job.bodyRead (slot .reading).named.index (slot .reading).named.generation (.slot p f.tag) = job := rfl
  have hread : { slot .reading with phase := .reading } = slot .reading := rfl
  have hadmit : { slot .reading with phase := .admitting } = slot .admitting := rfl
  have hbank : bankOf f.index = bankOf job.index := rfl
  rw [hstate, hjob] at hexec
  simp only [bank, hbank] at *
  clear_value slot reserved job
  have hslot := State.slot_setSlot_self { s with tables := reserved } p f.tag (some (slot .reading))
  refine ⟨fun hplace => ?_, fun hfull => ?_⟩
  · rw [State.askSlot_place hslot hplace, State.setSlot_setSlot, hread] at hexec
    refine ⟨_, hexec, ?_, fun p' g hne => ?_, State.queue_joinQueue _ job, State.jobJoins_joinQueue _ job, ?_⟩
    · exact (State.joinQueue_slot _ _ _ _).trans hslot
    · exact (State.joinQueue_slot _ _ _ _).trans (State.slot_setSlot_other _ _ hne)
    · rw [State.joinQueue_rest]
      rfl
  · rw [State.askSlot_full hslot hfull, State.setSlot_setSlot, hadmit] at hexec
    exact hexec

/-! ## The free-list head is taken (R8) -/

namespace Tables

variable {T : Tables} {i : Index} {rest : List Index} {d : DomainId}

theorem takeHead_rest (T : Tables) (i : Index) (rest : List Index) (d : DomainId) (k : RecKind) (tg : Option Index) :
    T.takeHead i rest d k tg = { T with
      rst := (T.takeHead i rest d k tg).rst
      domains := (T.takeHead i rest d k tg).domains
      freeList := rest } := by
  have hmod : ∀ (T : Tables) (i : Index) (f : StatusEntry → StatusEntry), T.modEntry i f =
      { T with rst := (T.modEntry i f).rst } := modEntry_rest
  cases tg with
  | none =>
    unfold takeHead
    dsimp only
    rw [hmod]
    rfl
  | some t =>
    unfold takeHead
    dsimp only
    rw [hmod, hmod { T with freeList := rest }]
    rfl

theorem takeHead_domain (k : RecKind) (tg : Option Index) (d' : DomainId) :
    (T.takeHead i rest d k tg).domain d' =
      if d' = d then { T.domain d with count := (T.domain d).count + 1 } else T.domain d' := by
  have hdomains : ∀ T' : Tables, T'.domains = T.domains → (T'.countUp d).domain d' =
      if d' = d then { T.domain d with count := (T.domain d).count + 1 } else T.domain d' := by
    intro T' h
    have hd : ∀ x, T'.domain x = T.domain x := fun x => by rw [domain, h]; rfl
    rw [countUp, domain_setDomain, hd, hd]
  have hmod : ∀ (T : Tables) (i : Index) (f : StatusEntry → StatusEntry), (T.modEntry i f).domains = T.domains :=
    fun T i f => by rw [modEntry_rest]
  cases tg with
  | none => exact hdomains _ (hmod _ _ _)
  | some t => exact hdomains _ ((hmod _ _ _).trans (hmod _ _ _))

/-- The status entries after the head has been taken for a DATA record. -/
theorem takeHead_entry_data (k : RecKind) (h0 : i ≠ 0) (j : Index) :
    (T.takeHead i rest d k none).entry j =
      if j = i then { T.entry j with
        state := .pending, domain := some d, kind := some k, target := none, pins := 0, writer := none,
        deadline := none }
      else T.entry j := by
  have hmod := entry_modEntry { T with freeList := rest } i j fun e =>
    { e with
      state := .pending, domain := some d, kind := some k, target := none, pins := 0, writer := none,
      deadline := none }
  simp only [ne_eq, h0, not_false_eq_true, and_true] at hmod
  exact hmod

/-- The status entries after the head has been taken for an alias of `t`. -/
theorem takeHead_entry_alias (k : RecKind) {t : Index} (h0 : i ≠ 0) (ht0 : t ≠ 0) (hne : i ≠ t) (j : Index) :
    (T.takeHead i rest d k (some t)).entry j =
      if j = i then { T.entry j with
        state := .pending, domain := some d, kind := some k, target := some t, pins := 0, writer := none,
        deadline := none }
      else if j = t then { T.entry j with aliases := (T.entry j).aliases ++ [i] }
      else T.entry j := by
  have hmod := entry_modEntry { T with freeList := rest } i j fun e =>
    { e with
      state := .pending, domain := some d, kind := some k, target := some t, pins := 0, writer := none,
      deadline := none }
  have hmod' := fun T' : Tables => entry_modEntry T' t j fun e => { e with aliases := e.aliases ++ [i] }
  simp only [ne_eq, h0, ht0, not_false_eq_true, and_true] at hmod hmod'
  refine (hmod' _).trans ?_
  rw [hmod]
  by_cases hj : j = i
  · rw [if_pos hj, if_pos hj, if_neg (fun h => hne (hj.symm.trans h))]
    rfl
  · rw [if_neg hj, if_neg hj]
    by_cases hjt : j = t
    · rw [if_pos hjt, if_pos hjt]
      rfl
    · rw [if_neg hjt, if_neg hjt]
      rfl

end Tables

namespace State

variable {s : State}

/-- An establish that takes the head at a bank with a free place. -/
theorem takeAndAsk_place {r : Request} {d : DomainId} {k : RecKind} {tg : Option Index} {i : Index} {rest : List Index}
    {mk : Index → Generation → Job} {job : Job} (hfree : s.tables.freeList = i :: rest)
    (hjob : mk i (s.tables.entry i).generation = job) (hplace : (s.bank (bankOf job.index)).queue.length < 12) :
    (s.acceptance r).takeAndAsk d k tg mk = State.joinQueue
      { s.inProgress r .job (some (i, (s.tables.entry i).generation)) [⟨job, none⟩] with
        tables := s.tables.takeHead i rest d k tg } job := by
  have hfree' : (s.acceptance r).tables.freeList = i :: rest := hfree
  rw [takeAndAsk, hfree']
  dsimp only
  have hgen : ((s.acceptance r).tables.entry i).generation = (s.tables.entry i).generation := rfl
  rw [hgen, hjob]
  exact askEngine_place (e := ⟨r, .checking, some (i, (s.tables.entry i).generation), [], none⟩) rfl hplace

/-- Behind the head taken and the job joined nothing else has changed. -/
theorem joinQueue_takeHead_rest (s : State) (job : Job) (T : Tables) (i : Index) (rest : List Index) (d : DomainId)
    (k : RecKind) (tg : Option Index) :
    let t := State.joinQueue { s with tables := T.takeHead i rest d k tg } job
    t = { s with
      banks := t.banks
      storage := t.storage
      tables := { T with rst := t.tables.rst, domains := t.tables.domains, freeList := rest } } := by
  intro t
  have htables : t.tables = T.takeHead i rest d k tg := joinQueue_tables _ _
  rw [htables, ← Tables.takeHead_rest]
  exact joinQueue_rest _ _

end State

/-- Settles O23: the tests of R77 pass, the head is taken, and the job joins. -/
theorem establishDataTakesHead : Obligations.EstablishDataTakesHead := by
  intro s a d r h fl dl i rest hl ha hopen hquota hfree h0 hrange hahead hplace job
  have hnone : (s.acceptance (.establishData a)).establishDataRefusal d ⟨a.base, a.extent, r, h, fl, a.tag⟩ dl = none := by
    have hahead' : s.deadlineAhead dl = true := by
      cases dl with
      | none => rfl
      | some e => exact decide_eq_true (hahead e rfl)
    show s.establishDataRefusal d _ dl = none
    simp [State.establishDataRefusal, hopen, State.quotaFull, hquota, hfree, hrange, hahead']
  have hexec : exec (.establishData a) s = .next (State.joinQueue
      { s.inProgress (.establishData a) .job (some (i, (s.tables.entry i).generation)) [⟨job, none⟩] with
        tables := s.tables.takeHead i rest d .dataKind none } job) := by
    rw [exec_establishData s a hl, State.acceptEstablishData, ha]
    simp only [hnone]
    rw [State.takeAndAsk_place (job := job) hfree rfl hplace]
  refine ⟨_, hexec, ?_, fun j hj => ?_, ?_, fun d' hd => ?_, State.queue_joinQueue _ job, State.jobJoins_joinQueue _ job,
    ?_⟩
  · rw [State.joinQueue_tables]
    exact (Tables.takeHead_entry_data _ h0 i).trans (if_pos rfl)
  · rw [State.joinQueue_tables]
    exact (Tables.takeHead_entry_data _ h0 j).trans (if_neg hj)
  · rw [State.joinQueue_tables]
    exact (Tables.takeHead_domain _ _ d).trans (if_pos rfl)
  · rw [State.joinQueue_tables]
    exact (Tables.takeHead_domain _ _ d').trans (if_neg hd)
  · exact State.joinQueue_takeHead_rest _ job s.tables i rest d _ _

/-- Settles O24: the head is taken, the alias joins its target's list, and the read of the target joins its queue. -/
theorem establishAliasTakesHead : Obligations.EstablishAliasTakesHead := by
  intro s a d tg body dl i rest hl ha hnone hfree h0 hne hplace job
  have ht0 : tg ≠ 0 := by
    intro ht
    simp only [State.establishAliasRefusal, if_pos ((val_eq_zero_iff tg).mpr ht)] at hnone
    split at hnone <;> cases hnone
  have hexec : exec (.establishAlias a) s = .next (State.joinQueue
      { s.inProgress (.establishAlias a) .job (some (i, (s.tables.entry i).generation)) [⟨job, none⟩] with
        tables := s.tables.takeHead i rest d .aliasKind (some tg) } job) := by
    have hnone' : (s.acceptance (.establishAlias a)).establishAliasRefusal d tg a.targetGeneration body dl = none := hnone
    rw [exec_establishAlias s a hl, State.acceptEstablishAlias, ha]
    simp only [hnone']
    rw [State.takeAndAsk_place (job := job) hfree rfl hplace]
  refine ⟨_, hexec, ?_, ?_, fun j hj hjt => ?_, ?_, fun d' hd => ?_, State.queue_joinQueue _ job,
    State.jobJoins_joinQueue _ job, ?_⟩
  · rw [State.joinQueue_tables]
    exact (Tables.takeHead_entry_alias _ h0 ht0 hne i).trans (if_pos rfl)
  · rw [State.joinQueue_tables]
    exact (Tables.takeHead_entry_alias _ h0 ht0 hne tg).trans ((if_neg (Ne.symm hne)).trans (if_pos rfl))
  · rw [State.joinQueue_tables]
    exact (Tables.takeHead_entry_alias _ h0 ht0 hne j).trans ((if_neg hj).trans (if_neg hjt))
  · rw [State.joinQueue_tables]
    exact (Tables.takeHead_domain _ _ d).trans (if_pos rfl)
  · rw [State.joinQueue_tables]
    exact (Tables.takeHead_domain _ _ d').trans (if_neg hd)
  · exact State.joinQueue_takeHead_rest _ job s.tables i rest d _ _

end Sys2Proof.Machine
end

section
/-! SUPPORT. An AMEND that passes its tests at acceptance (R82 to R84): of the deadline alone it is done in the claim,
and of body fields it asks for its job. -/

namespace Sys2Proof.Machine

open State

namespace State

variable {s : State}

/-- An AMEND that passes its tests goes on. -/
theorem exec_amend_of_passes {a : AmendArgs} {i : Index} {force : Bool} {c : AmendChanges} (h : s.listening)
    (hi : indexOf a.index = some i) (hf : flagOf a.force = some force) (hc : changesOf a = some c)
    (hpass : s.amendRefusal i a.generation a.mask c = none) :
    exec (.amend a) s = .next ((s.acceptance (.amend a)).amendOn i a.generation c force) := by
  have hpass' : (s.acceptance (.amend a)).amendRefusal i a.generation a.mask c = none := hpass
  simp only [exec_amend s a h, acceptAmend, hi, hf, hc, hpass']

/-- An AMEND of the deadline alone is done in its acceptance claim. -/
theorem exec_amend_of_deadlineOnly {a : AmendArgs} {i : Index} {force : Bool} {c : AmendChanges} (h : s.listening)
    (hi : indexOf a.index = some i) (hf : flagOf a.force = some force) (hc : changesOf a = some c)
    (hpass : s.amendRefusal i a.generation a.mask c = none) (hd : deadlineOnly c = true) :
    exec (.amend a) s =
      .next (State.answered { s with tables := s.tables.applyDeadline i c.deadline } (.amend a) .done []) := by
  rw [exec_amend_of_passes h hi hf hc hpass, amendOn, if_pos hd]
  rfl

/-- The changes of the masks that touch the deadline alone (R190). -/
theorem changesOf_setDeadline {a : AmendArgs} (h : a.mask = 0x20) :
    changesOf a = some ⟨none, none, none, none, none, .set a.deadline⟩ := by
  rw [changesOf, h]
  rfl

theorem changesOf_clearDeadline {a : AmendArgs} (h : a.mask = 0x40) :
    changesOf a = some ⟨none, none, none, none, none, .clear⟩ := by
  rw [changesOf, h]
  rfl

/-- A usable record at the handle's generation passes the tests of an AMEND whose mask touches the deadline alone. -/
theorem amendRefusal_of_deadline {a : AmendArgs} {i : Index} {c : AmendChanges} (hc : changesOf a = some c)
    (h0 : i ≠ 0) (hstate : (s.tables.entry i).state = .live ∨ (s.tables.entry i).state = .suspended)
    (hgen : (s.tables.entry i).generation = a.generation)
    (hmask : (a.mask = 0x20 ∧ s.epoch < a.deadline) ∨ a.mask = 0x40) :
    s.amendRefusal i a.generation a.mask c = none := by
  have hstands : ¬ ((s.tables.entry i).state = .free ∨ (s.tables.entry i).state = .pending ∨
      (s.tables.entry i).generation ≠ a.generation) := by
    rcases hstate with h | h <;> simp [h, hgen]
  have husable : ¬ ((s.tables.entry i).state ≠ .live ∧ (s.tables.entry i).state ≠ .suspended) := by
    rcases hstate with h | h <;> simp [h]
  rw [amendRefusal_eq hc]
  simp only [if_neg h0, if_neg hstands, if_neg husable]
  rcases hmask with ⟨hm, hahead⟩ | hm
  · have hdue : ¬ a.deadline ≤ s.epoch := BitVec.not_le.mpr hahead
    rw [hm, if_neg (by simp [hdue]), if_neg (by simp)]
  · rw [hm, if_neg (by simp), if_neg (by simp)]

/-- The job that an AMEND of body fields asks for first. -/
def amendJobOf (s : State) (i : Index) (g : Generation) (c : AmendChanges) (force : Bool) : Job :=
  match s.amendTarget i c with
  | some t => .bodyRead t (s.tables.entry t).generation .engine
  | none => .amendJob i g c force

theorem amendOn_of_bodyFields (i : Index) (g : Generation) {c : AmendChanges} (force : Bool)
    (hd : deadlineOnly c = false) : s.amendOn i g c force = s.askEngine (s.amendJobOf i g c force) := by
  rw [amendOn, if_neg (by simp [hd]), amendJobOf]
  cases s.amendTarget i c <;> rfl

/-- A request that asks for its job in its acceptance claim. -/
theorem acceptance_askEngine_place (r : Request) {job : Job} (h : (s.bank (bankOf job.index)).queue.length < 12) :
    (s.acceptance r).askEngine job = State.joinQueue (s.inProgress r .job none [⟨job, none⟩]) job :=
  askEngine_place (s := s.acceptance r) (e := ⟨r, .checking, none, [], none⟩) rfl h

theorem acceptance_askEngine_full (r : Request) {job : Job} (h : 12 ≤ (s.bank (bankOf job.index)).queue.length) :
    (s.acceptance r).askEngine job = { s.inProgress r .admitting none [⟨job, none⟩] with
      banks := place s.banks (bankOf job.index) { s.bank (bankOf job.index) with engineWaiting := some job } } :=
  askEngine_full (s := s.acceptance r) (e := ⟨r, .checking, none, [], none⟩) rfl h

end State

/-- Settles O26: the two masks that touch the deadline alone; then the job, which joins or waits. -/
theorem amendAtAcceptance : Obligations.AmendAtAcceptance := by
  refine ⟨fun s a i h hi h0 hf hstate hgen => ⟨fun hm hahead => ?_, fun hm => ?_⟩,
    fun s a i force c job h hi hf hc hpass hd hjob => ?_⟩
  · have hc := State.changesOf_setDeadline hm
    rw [State.exec_amend_of_deadlineOnly h (indexOf_eq_some hi) (flagOf_eq_some hf) hc
      (State.amendRefusal_of_deadline hc h0 hstate hgen (Or.inl ⟨hm, hahead⟩)) rfl]
    refine ⟨_, rfl, ?_, fun j hj => ?_, ?_, ?_⟩
    · exact (Tables.enterQueue_entry _ i i _ h0).trans (if_pos rfl)
    · exact (Tables.enterQueue_entry _ i j _ h0).trans (if_neg hj)
    · show (s.tables.enterQueue i a.deadline).expiryQueue = _
      rw [Tables.enterQueue_rest]
    · show State.answered { s with tables := s.tables.enterQueue i a.deadline } (.amend a) .done [] =
        State.answered { s with tables := { s.tables with
          rst := (s.tables.enterQueue i a.deadline).rst
          expiryQueue := (s.tables.enterQueue i a.deadline).expiryQueue } } (.amend a) .done []
      rw [Tables.enterQueue_rest]
  · have hc := State.changesOf_clearDeadline hm
    rw [State.exec_amend_of_deadlineOnly h (indexOf_eq_some hi) (flagOf_eq_some hf) hc
      (State.amendRefusal_of_deadline hc h0 hstate hgen (Or.inr hm)) rfl]
    refine ⟨_, rfl, ?_, fun j hj => ?_, ?_, ?_⟩
    · exact (Tables.leaveQueue_entry _ i i).trans (if_pos rfl)
    · exact (Tables.leaveQueue_entry _ i j).trans (if_neg hj)
    · show (s.tables.leaveQueue i).expiryQueue = _
      rw [Tables.leaveQueue_rest]
    · show State.answered { s with tables := s.tables.leaveQueue i } (.amend a) .done [] =
        State.answered { s with tables := { s.tables with
          rst := (s.tables.leaveQueue i).rst
          expiryQueue := (s.tables.leaveQueue i).expiryQueue } } (.amend a) .done []
      rw [Tables.leaveQueue_rest]
  · have hextent := extent_isSome_of_changes hc
    have hask : (s.acceptance (.amend a)).amendJobOf i a.generation c force = job := by
      have htarget : (s.acceptance (.amend a)).amendTarget i c =
          if a.mask.getLsbD 3 = true ∧ (s.tables.entry i).kind = some .aliasKind then (s.tables.entry i).target
          else none := by
        rw [State.amendTarget, hextent]
        rfl
      rw [State.amendJobOf, htarget]
      rcases hjob with ⟨hdirect, rfl⟩ | ⟨hmask, hkind, t, ht, rfl⟩
      · rw [if_neg]
        rintro ⟨hmask, hkind⟩
        rcases hdirect with h | h
        · rw [h] at hmask
          cases hmask
        · rw [h] at hkind
          cases hkind
      · rw [if_pos ⟨hmask, hkind⟩, ht]
        rfl
    have hexec : exec (.amend a) s = .next ((s.acceptance (.amend a)).askEngine job) := by
      rw [State.exec_amend_of_passes h hi hf hc hpass, State.amendOn_of_bodyFields i _ force hd, hask]
    refine ⟨fun hplace => ?_, fun hfull => ?_⟩
    · rw [State.acceptance_askEngine_place _ hplace] at hexec
      exact ⟨_, hexec, State.queue_joinQueue (s.inProgress (.amend a) .job none [⟨job, none⟩]) job,
        State.jobJoins_joinQueue (s.inProgress (.amend a) .job none [⟨job, none⟩]) job, State.joinQueue_rest _ job⟩
    · rw [State.acceptance_askEngine_full _ hfull] at hexec
      exact hexec

end Sys2Proof.Machine
end

section
/-! SUPPORT. The events of a bank with no completion in them (R142 to R146, R152 to R156): service and refresh from
an idle bank, the end of a refresh, and the grant of a free place. -/

namespace Sys2Proof.Machine

open State

namespace State

/-! ## What a choice comes to (R143) -/

section
variable {k t : Bank} (h : ChoiceMade k t)
include h

/-- A bank in debt refreshes where it is urgent, at debt 4, or has no job. -/
theorem ChoiceMade.refresh (hdebt : 0 < k.debt) (hwork : k.queue = [] ∨ 4 ≤ k.debt ∨ k.urgent = true) :
    t = { k with
      controller := .refreshing
      openPage := none
      underRefresh := some k.pointer
      debt := k.debt - 1
      pointer := k.pointer + 1
      urgent := k.urgent || decide (4 ≤ k.debt) } := by
  by_cases hc : (k.urgent = true ∧ 0 < k.debt) ∨ 4 ≤ k.debt
  · rw [ChoiceMade, if_pos hc] at h
    have hurgent : (k.urgent || decide (4 ≤ k.debt)) = true := by
      rcases hc with hc | hc <;> simp [hc]
    rw [h, hurgent]
    rfl
  · have hno : ¬ k.urgent = true ∧ ¬ 4 ≤ k.debt := ⟨fun hu => hc (Or.inl ⟨hu, hdebt⟩), fun hd => hc (Or.inr hd)⟩
    have hqueue : k.queue = [] := by tauto
    have hurgent : (k.urgent || decide (4 ≤ k.debt)) = k.urgent := by simp [hno.2]
    rw [ChoiceMade, if_neg hc] at h
    rw [hurgent]
    split at h
    · next job rest hq => simp [hqueue] at hq
    · rw [if_pos hdebt] at h
      exact h

/-- Below debt 4 and outside an urgent run a bank serves its head job. -/
theorem ChoiceMade.serve {job : Job} {rest : List Job} (hqueue : k.queue = job :: rest) (hdebt : k.debt < 4)
    (hurgent : k.urgent = false ∨ k.debt = 0) :
    ∃ op : OpenPage, op.page = pageOf job.index ∧
      t = { k with controller := .busy, openPage := some op, writeHalf := false } := by
  have hc : ¬ ((k.urgent = true ∧ 0 < k.debt) ∨ 4 ≤ k.debt) := by
    rintro (⟨hu, hd⟩ | hd)
    · rcases hurgent with h' | h'
      · rw [h'] at hu
        cases hu
      · omega
    · omega
  rw [ChoiceMade, if_neg hc] at h
  split at h
  · next job' rest' hq =>
    obtain ⟨op, hpage, -, -, ht⟩ := h
    obtain ⟨rfl, rfl⟩ := List.cons.inj (hqueue.symm.trans hq)
    exact ⟨op, hpage, ht⟩
  · next hq => simp [hqueue] at hq

/-- With no job and no debt a bank rests. -/
theorem ChoiceMade.rest (hqueue : k.queue = []) (hdebt : k.debt = 0) :
    t = { k with controller := if k.openPage = none then .idleClosed else .idleOpen } := by
  rw [ChoiceMade, if_neg (by omega)] at h
  split at h
  · next job rest hq => simp [hqueue] at hq
  · rw [if_neg (by omega)] at h
    exact h

end

/-! ## Service and refresh (R144, R146, R156) -/

variable {s : State}

theorem choiceOf_serve {k : Bank} {job : Job} {rest : List Job} (hqueue : k.queue = job :: rest) (hdebt : k.debt < 4)
    (hurgent : k.urgent = false) : choiceOf k = .serve := by
  have hd : ¬ Config.urgentDebt ≤ k.debt := Nat.not_le.mpr hdebt
  simp [choiceOf, hqueue, hd, hurgent]

theorem choosesRefresh_of_debt {k : Bank} (hdebt : 0 < k.debt)
    (hwork : k.queue = [] ∨ 4 ≤ k.debt ∨ k.urgent = true) : choosesRefresh k = true := by
  by_cases hu : k.urgent = true
  · simp [choosesRefresh, choiceOf, hu, hdebt]
  · by_cases hd : Config.urgentDebt ≤ k.debt
    · simp [choosesRefresh, choiceOf, hu, hd]
    · have hqueue : k.queue = [] := hwork.resolve_right fun h => h.elim (fun h4 => hd h4) hu
      simp [choosesRefresh, choiceOf, hu, hd, hqueue, hdebt]

/-- What a choice point leaves of the other banks, of the body positions and of the rest. -/
theorem choicePoint_kept (s : State) (b : BankId) (h : s.PagesClean) :
    (∀ b', b' ≠ b → (s.choicePoint b).bank b' = s.bank b') ∧ (∀ i, (s.choicePoint b).cellAt i = s.cellAt i) ∧
      s.choicePoint b = { s with banks := (s.choicePoint b).banks, storage := (s.choicePoint b).storage } :=
  ⟨fun b' => (queue_choicePoint s b b').2, (sameBodies_choicePoint s b h).cells, choicePoint_rest s b⟩

/-- The bank as the end of a refresh leaves it to its choice (R156). -/
def refreshEnded (k : Bank) : Bank := { k with underRefresh := none, urgent := k.urgent && decide (k.debt ≠ 0) }

theorem finishRefresh_eq {b : BankId} (h : (s.bank b).controller = .refreshing) :
    s.finishRefresh b = (s.setBank b (refreshEnded (s.bank b))).choicePoint b := by
  unfold finishRefresh
  rw [h]
  rfl

end State

/-- Settles O42: each command is a choice point of its bank. -/
theorem bankServesAndRefreshes : Obligations.BankServesAndRefreshes := by
  intro s b hclean
  obtain ⟨hother, hcells, hrest⟩ := State.choicePoint_kept s b hclean
  have hmade := choiceMade_choicePoint s b
  refine ⟨fun hidle => ⟨fun job rest hqueue hdebt hurgent => ?_, fun hdebt hwork => ?_⟩, fun hrefreshing => ?_⟩
  · obtain ⟨op, hpage, hbank⟩ := hmade.serve hqueue hdebt (Or.inl hurgent)
    refine ⟨s.choicePoint b, op, ?_, hpage, hbank, hother, hcells, hrest⟩
    exact congrArg Host.Outcome.next
      (if_pos ⟨(State.isIdle_iff _).mpr hidle, State.choiceOf_serve hqueue hdebt hurgent⟩)
  · refine ⟨s.choicePoint b, ?_, hmade.refresh hdebt hwork, hother, hcells, hrest⟩
    exact congrArg Host.Outcome.next
      (if_pos ⟨(State.isIdle_iff _).mpr hidle, State.choosesRefresh_of_debt hdebt hwork⟩)
  · have hended := sameBodies_setBank s b (State.refreshEnded (s.bank b)) hclean rfl
    have hself : (s.setBank b (State.refreshEnded (s.bank b))).bank b = State.refreshEnded (s.bank b) := by
      rw [bank_setBank, if_pos rfl]
    obtain ⟨hother', hcells', hrest'⟩ := State.choicePoint_kept _ b hended.clean
    have hmade' := choiceMade_choicePoint (s.setBank b (State.refreshEnded (s.bank b))) b
    rw [hself] at hmade'
    refine ⟨_, congrArg Host.Outcome.next (State.finishRefresh_eq hrefreshing), fun b' hb => ?_, fun i => ?_, hrest',
      fun hwork => ?_, fun job rest hqueue hdebt hurgent => ?_, fun hqueue hdebt => ?_⟩
    · rw [hother' b' hb, bank_setBank, if_neg hb]
    · rw [hcells', hended.cells]
    · have hdebt : 0 < (s.bank b).debt := by omega
      have hne : decide ((s.bank b).debt ≠ 0) = true := decide_eq_true (by omega)
      have hurgent : (State.refreshEnded (s.bank b)).urgent = (s.bank b).urgent := by
        rw [State.refreshEnded, hne, Bool.and_true]
      have hwork' : (s.bank b).queue = [] ∨ 4 ≤ (s.bank b).debt ∨ (State.refreshEnded (s.bank b)).urgent = true := by
        rw [hurgent]
        tauto
      refine (hmade'.refresh hdebt hwork').trans ?_
      rw [hurgent]
      rfl
    · have hurgent' : (State.refreshEnded (s.bank b)).urgent = false := by
        rcases hurgent with h | h <;> simp [State.refreshEnded, h]
      obtain ⟨op, hpage, hbank⟩ := hmade'.serve hqueue hdebt (Or.inl hurgent')
      refine ⟨op, hpage, hbank.trans ?_⟩
      rw [← hurgent']
      rfl
    · have hurgent' : (State.refreshEnded (s.bank b)).urgent = false := by simp [State.refreshEnded, hdebt]
      refine (hmade'.rest hqueue hdebt).trans ?_
      rw [← hurgent']
      rfl

/-! ## The grant of a free place (R151 to R153) -/

namespace State

variable {s : State} {b : BankId}

theorem admitWaiting_eq_self (h : 12 ≤ (s.bank b).queue.length ∨ claimantWaits (s.bank b) = false) :
    s.admitWaiting b = s := by
  refine if_neg ?_
  rintro ⟨hroom, hwaits⟩
  have hroom' : (s.bank b).queue.length < 12 := hroom
  rcases h with h | h
  · omega
  · rw [h] at hwaits
    cases hwaits

theorem admitWaiting_of_work (hroom : (s.bank b).queue.length < 12) (hwaits : claimantWaits (s.bank b) = true)
    (hwork : (s.bank b).controller = .busy ∨ (s.bank b).controller = .refreshing) :
    s.admitWaiting b = s.grant b := by
  have hidle : ¬ isIdle (s.bank b).controller = true := by
    rcases hwork with h | h <;> simp [h, isIdle]
  exact (if_pos ⟨hroom, hwaits⟩).trans (if_neg hidle)

theorem nextPort_eq_none {k : Bank} (h : ∀ p, pick k.slotsWaiting p = []) : nextPort k = none := by
  rw [nextPort, List.find?_eq_none]
  exact fun p _ => by simp [h p]

theorem grant_engine {job : Job} {e : Progress} (hw : (s.bank b).engineWaiting = some job) (he : s.engine = some e) :
    s.grant b = { s with
      banks := place s.banks b { s.bank b with engineWaiting := none, queue := (s.bank b).queue ++ [job] }
      engine := some { e with phase := .job } } := by
  simp only [grant, hw, setEnginePhase, setBank, he]
  rfl

theorem grant_slot {p : PortId} {g : Tag} {gs : List Tag} {x : CheckSlot} (hw : (s.bank b).engineWaiting = none)
    (hp : nextPort (s.bank b) = some p) (hg : pick (s.bank b).slotsWaiting p = g :: gs) (hx : s.slot p g = some x) :
    s.grant b = State.setSlot { s with
      banks := place s.banks b { s.bank b with
        slotsWaiting := place (s.bank b).slotsWaiting p gs
        lastGranted := p
        queue := (s.bank b).queue ++ [.bodyRead (x.targetRead.getD x.named).index
          (x.targetRead.getD x.named).generation (.slot p g)] } } p g (some { x with phase := .reading }) := by
  simp only [grant, hw, hp, grantSlot, hg, slotJob_eq s p g x hx, Option.toList_some]
  exact setSlotPhase_of_slot _ hx

end State

/-- Settles O44: no free place, the engine first, then the first port in the arbiter's order, then no claimant. -/
theorem admissionGrantsInOrder : Obligations.AdmissionGrantsInOrder := by
  intro s b
  have hexec : exec (.admissionGrant b) s = .next (s.admitWaiting b) := rfl
  rw [hexec]
  refine ⟨fun hfull => by rw [State.admitWaiting_eq_self (Or.inl hfull)],
    fun hroom hwork => ⟨fun job e hw he => ?_, fun n g gs x job hw => ?_⟩, fun hw hslots => ?_⟩
  · rw [State.admitWaiting_of_work hroom (by simp [State.claimantWaits, hw]) hwork, State.grant_engine hw he]
  · intro p hn hg hx hnamed htarget
    have hp : nextPort (s.bank b) = some p := nextPort_eq_some _ n hn (by rw [hg]; exact List.cons_ne_nil _ _)
    have hjob : job = .bodyRead (x.targetRead.getD x.named).index (x.targetRead.getD x.named).generation (.slot p g) := by
      cases ht : x.targetRead with
      | none => exact hnamed ht
      | some r => exact htarget r ht
    rw [State.admitWaiting_of_work hroom (by simp [State.claimantWaits, hp]) hwork, State.grant_slot hw hp hg hx, hjob]
  · rw [State.admitWaiting_eq_self (Or.inr (by simp [State.claimantWaits, hw, State.nextPort_eq_none hslots]))]

end Sys2Proof.Machine
end

section
/-! SUPPORT. What the completion claims of a bank come to: the freed place is granted, the issuer takes what the job
brought, and the bank makes its next choice (R143, R146, R147). Then QUERY, the end of an AMEND's write half, and the
claims that ask for another job. -/

namespace Sys2Proof.Machine

open State

namespace State

variable {s : State} {b : BankId}

/-! ## The freed place is granted (R146, R153) -/

/-- No body position changes where the page buffers and storage stay as they are. -/
theorem sameBodies_of_openPages {t : State} (hopen : ∀ b, (t.bank b).openPage = (s.bank b).openPage)
    (hstorage : t.storage = s.storage) (hera : t.bodyEra = s.bodyEra) (h : s.PagesClean) : SameBodies s t := by
  have hblank : t.blankCell = s.blankCell := by rw [blankCell, hera]; rfl
  refine ⟨fun i => ?_, fun b op hop hdirty i hi => ?_, hblank⟩
  · simp only [cellAt, hopen, hstorage, hblank]
  · rw [hopen] at hop
    rw [hstorage, hblank]
    exact h b op hop hdirty i hi

theorem leaveHead_bank (s : State) (b : BankId) :
    ((s.leaveHead b).bank b).controller = (s.bank b).controller ∧
      (∀ b', ((s.leaveHead b).bank b').openPage = (s.bank b').openPage) ∧
      ∀ b', b' ≠ b → (s.leaveHead b).bank b' = s.bank b' := by
  obtain ⟨l, w, v, p, -, hbank⟩ := bank_grant (s.setBank b { s.bank b with
    queue := (s.bank b).queue.tail, writeHalf := false }) b
  have hleave : ∀ b', (s.leaveHead b).bank b' = _ := hbank
  refine ⟨?_, fun b' => ?_, fun b' hb => ?_⟩
  · rw [hleave, if_pos rfl, bank_setBank, if_pos rfl]
  · rw [hleave]
    by_cases hb : b' = b
    · subst hb
      rw [if_pos rfl, bank_setBank, if_pos rfl]
    · rw [if_neg hb, bank_setBank, if_neg hb]
  · rw [hleave, if_neg hb, bank_setBank, if_neg hb]

theorem leaveHead_tables (s : State) (b : BankId) : (s.leaveHead b).tables = s.tables := by rw [leaveHead_rest]

/-- The grant of a place to the engine can change the engine's phase, and nothing else of it. -/
theorem leaveHead_engine {e : Progress} (h : s.engine = some e) :
    ∃ ph, (s.leaveHead b).engine = some { e with phase := ph } := by
  unfold leaveHead grant
  dsimp only
  split
  · exact ⟨.job, by simp [setEnginePhase, h]⟩
  · split
    · refine ⟨e.phase, ?_⟩
      unfold grantSlot
      dsimp only
      split
      · exact h
      · rw [setSlotPhase_rest]
        exact h
    · exact ⟨e.phase, h⟩

/-- A completion claim that leaves the banks and storage as the grant left them ends as `JobEnds` says. -/
theorem jobEnds_leaveHead {v : State} (hbanks : v.banks = (s.leaveHead b).banks)
    (hstorage : v.storage = s.storage) (hera : v.bodyEra = s.bodyEra) :
    JobEnds s (s.leaveHead b) (v.choicePoint b) b v := by
  obtain ⟨-, hopen, hother⟩ := leaveHead_bank s b
  refine jobEnds_choicePoint s _ v b hbanks hother fun h => ?_
  have hsame := sameBodies_of_openPages (s := s) (t := v) (fun b' => by
    rw [← hopen b', bank, hbanks]
    rfl) hstorage hera h
  exact ⟨hsame.clean, hsame.cells⟩

/-! ## A request is answered in a completion claim -/

/-- `u` with the tables that a completion claim leaves, and its request answered. -/
def endsAnswered (u : State) (T : Tables) (e : Progress) (jobs : List EngineJob) (st : AnswerStatus)
    (content : List Byte) : State :=
  { u with
    tables := T
    iface := .answerReady
    answerBuffer := some ⟨st, requestKind e.request, content⟩
    engine := some { e with phase := .answered, jobs := jobs } }

theorem answer_of_engine {e : Progress} (h : s.engine = some e) (st : AnswerStatus) (content : List Byte) :
    s.answer st content = endsAnswered s s.tables e e.jobs st content := by
  rw [answer, h]
  rfl

/-- A completion claim that answers its request: what it leaves, and what the grant and the choice do. -/
theorem choicePoint_endsAnswered (T : Tables) (e : Progress) (jobs : List EngineJob) (st : AnswerStatus)
    (content : List Byte) {job : Job} {rest : List Job} (hq : (s.bank b).queue = job :: rest) :
    let t := (endsAnswered (s.leaveHead b) T e jobs st content).choicePoint b
    t.tables = T ∧ t.iface = .answerReady ∧ t.answerBuffer = some ⟨st, requestKind e.request, content⟩ ∧
      ∀ u, PlaceGranted s u b rest → JobEnds s u t b (endsAnswered u T e jobs st content) := by
  intro t
  have hrest : t = { endsAnswered (s.leaveHead b) T e jobs st content with
      banks := t.banks, storage := t.storage } := choicePoint_rest _ b
  refine ⟨by rw [hrest]; rfl, by rw [hrest]; rfl, by rw [hrest]; rfl, fun u hu => ?_⟩
  rw [← leaveHead_of_placeGranted s u b job rest hq hu]
  refine jobEnds_leaveHead rfl ?_ ?_
  · show (s.leaveHead b).storage = s.storage
    rw [leaveHead_rest]
  · show (s.leaveHead b).bodyEra = s.bodyEra
    rw [leaveHead_rest]

/-! ## The completion of a body read (R147) -/

theorem exec_bodyReadCompletion {i : Index} {g : Generation} {issuer : Issuer} {rest : List Job}
    (hbusy : (s.bank b).controller = .busy) (hq : (s.bank b).queue = .bodyRead i g issuer :: rest) :
    exec (.bodyReadCompletion b none) s =
      .next (((s.leaveHead b).issuerTakes i g issuer (s.readBody i)).choicePoint b) := by
  show Host.Outcome.next (s.completeRead b none) = _
  simp only [completeRead, hbusy, hq, decay]

/-- The engine's own record of the read it takes. -/
theorem setJobResult_of_engine {e : Progress} (r : JobResult) (h : s.engine = some e) :
    s.setJobResult r = { s with engine := some { e with jobs := e.jobs.map (withResult r) } } := by
  rw [setJobResult, h]
  rfl

theorem readClaim_tables (s : State) (t : Index) (g : Generation) (r : ReadResult) :
    s.readClaim t g r =
      { s with tables := if r.agreed = true then s.tables else s.tables.damageClaim t g } := by
  unfold readClaim
  split <;> rfl

end State

/-! ## QUERY (R94, R95) -/

namespace State

variable {s : State}

theorem exec_query (s : State) (a : QueryArgs) (h : s.listening) :
    exec (.query a) s = .next ((s.acceptance (.query a)).acceptQuery a) :=
  exec_command_of_listening s (.query a) h

/-- A QUERY of a record with no body to read is answered at once. -/
theorem exec_query_of_unread {a : QueryArgs} {i : Index} (h : s.listening) (hi : a.index.toNat = i.val)
    (hstate : (s.tables.entry i).state = .free ∨ (s.tables.entry i).state = .pending ∨
      (s.tables.entry i).state = .draining) :
    exec (.query a) s = .next (s.answered (.query a) .done (queryBytes i (s.tables.entry i) none)) := by
  have hreads : queryReads (s.tables.entry i).state = false := by
    rcases hstate with h | h | h <;> rw [h] <;> rfl
  rw [exec_query s a h, acceptQuery, indexOf_eq_some hi]
  simp only [acceptance_tables, hreads]
  rfl

theorem exec_query_of_read {a : QueryArgs} {i : Index} (h : s.listening) (hi : a.index.toNat = i.val)
    (hstate : (s.tables.entry i).state = .live ∨ (s.tables.entry i).state = .suspended ∨
      (s.tables.entry i).state = .damaged) (hplace : (s.bank (bankOf i)).queue.length < 12) :
    exec (.query a) s = .next (State.joinQueue
      (s.inProgress (.query a) .job none [⟨.bodyRead i (s.tables.entry i).generation .engine, none⟩])
      (.bodyRead i (s.tables.entry i).generation .engine)) := by
  have hreads : queryReads (s.tables.entry i).state = true := by
    rcases hstate with h | h | h <;> rw [h] <;> rfl
  rw [exec_query s a h, acceptQuery, indexOf_eq_some hi]
  simp only [acceptance_tables, hreads, if_true]
  rw [acceptance_askEngine_place _ hplace]

/-- The tables that the completion of a QUERY's read leaves. -/
def queryTables (s : State) (i : Index) (g : Generation) (r : ReadResult) : Tables :=
  if r.agreed = true ∨ (s.tables.entry i).generation ≠ g then s.tables else s.tables.damageClaim i g

/-- The status of the answer that it forms, and the answer's content, from the status entry as it stands (R95). -/
def queryStatus (s : State) (i : Index) (g : Generation) (r : ReadResult) : AnswerStatus :=
  if (s.tables.entry i).generation ≠ g then .done
  else if (s.tables.entry i).state = .damaged ∨ r.agreed = false then .damaged
  else .done

def queryContent (s : State) (i : Index) (g : Generation) (r : ReadResult) : List Byte :=
  if (s.tables.entry i).generation ≠ g then queryBytes i (s.tables.entry i) none
  else if (s.tables.entry i).state = .damaged ∨ r.agreed = false then
    queryBytes i ((s.queryTables i g r).entry i) (some r)
  else queryBytes i (s.tables.entry i) (some r)

theorem queryRead_eq {e : Progress} (h : s.engine = some e) (i : Index) (g : Generation) (r : ReadResult) :
    s.queryRead i g r =
      endsAnswered s (s.queryTables i g r) e e.jobs (s.queryStatus i g r) (s.queryContent i g r) := by
  by_cases hgen : (s.tables.entry i).generation ≠ g
  · rw [queryRead, if_pos hgen, answer_of_engine h, queryTables, if_pos (Or.inr hgen), queryStatus, if_pos hgen,
      queryContent, if_pos hgen]
  · have hclaim : s.readClaim i g r = { s with tables := s.queryTables i g r } := by
      rw [readClaim_tables, queryTables]
      simp only [hgen, or_false]
    have hengine : (s.readClaim i g r).engine = some e := by
      rw [hclaim]
      exact h
    rw [queryRead, if_neg hgen, queryStatus, if_neg hgen, queryContent, if_neg hgen]
    by_cases hdamaged : (s.tables.entry i).state = .damaged ∨ r.agreed = false
    · rw [if_pos hdamaged, if_pos hdamaged]
      have hread : s.queryRead i g r =
          (s.readClaim i g r).answer .damaged (queryBytes i ((s.readClaim i g r).tables.entry i) (some r)) := by
        rw [queryRead, if_neg hgen]
        rcases hdamaged with h | h
        · rw [if_pos h]
        · simp only [h, Bool.false_eq_true, if_false, ite_self]
      rw [queryRead, if_neg hgen] at hread
      rw [hread, answer_of_engine hengine, hclaim]
      rfl
    · obtain ⟨hstate, hagreed⟩ := not_or.mp hdamaged
      rw [Bool.not_eq_false] at hagreed
      rw [if_neg hdamaged, if_neg hdamaged, if_neg hstate, if_pos hagreed, answer_of_engine h, queryTables,
        if_pos (Or.inl hagreed)]

/-- The engine takes the result of a QUERY's read. -/
theorem engineTakesRead_query {e : Progress} {a : QueryArgs} (h : s.engine = some e) (hr : e.request = .query a)
    (i : Index) (g : Generation) (r : ReadResult) :
    s.engineTakesRead i g r = (s.setJobResult (.read r)).queryRead i g r := by
  unfold engineTakesRead
  simp only [h, hr]

end State

/-- Settles O29: the index, the null index, the records with and without a body to read; then the completion. -/
theorem queryAnswers : Obligations.QueryAnswers := by
  refine ⟨fun s a h => ⟨fun hbad => ?_, fun i hi => ⟨fun h0 => ?_, State.exec_query_of_unread h hi,
      fun hstate hplace => ?_⟩⟩, fun s b i g rest e a hbusy hq he hr => ?_⟩
  · rw [State.exec_query s a h, State.acceptQuery, indexOf_eq_none hbad]
    rfl
  · subst h0
    exact State.exec_query_of_unread h hi (Or.inl rfl)
  · exact ⟨_, State.exec_query_of_read h hi hstate hplace,
      State.queue_joinQueue (s.inProgress (.query a) .job none _) _,
      State.jobJoins_joinQueue (s.inProgress (.query a) .job none _) _, State.joinQueue_rest _ _⟩
  · obtain ⟨ph, hph⟩ := State.leaveHead_engine (b := b) he
    have hexec := State.exec_bodyReadCompletion hbusy hq
    have hread : (s.leaveHead b).issuerTakes i g .engine (s.readBody i) =
        endsAnswered (s.leaveHead b) (s.queryTables i g (s.readBody i)) e
          (e.jobs.map (withResult (.read (s.readBody i)))) (s.queryStatus i g (s.readBody i))
          (s.queryContent i g (s.readBody i)) := by
      rw [State.issuerTakes, State.engineTakesRead_query (a := a) hph hr, State.setJobResult_of_engine _ hph,
        State.queryRead_eq rfl]
      simp only [State.queryTables, State.queryStatus, State.queryContent, State.leaveHead_tables]
      rfl
    rw [hread] at hexec
    obtain ⟨htables, hiface, hanswer, hends⟩ := State.choicePoint_endsAnswered (s.queryTables i g (s.readBody i)) e
      (e.jobs.map (withResult (.read (s.readBody i)))) (s.queryStatus i g (s.readBody i))
      (s.queryContent i g (s.readBody i)) hq
    refine ⟨_, hexec, hiface, htables, ?_, fun u hu => ?_⟩
    · rw [hanswer, htables, hr, State.queryStatus, State.queryContent]
      split_ifs <;> rfl
    · rw [htables, hanswer]
      exact hends u hu

end Sys2Proof.Machine
end

section
/-! SUPPORT. The end of an AMEND's write half, and the completion claims in which another job is asked for (R31, R84,
R149, R152). -/

namespace Sys2Proof.Machine

open State

namespace State

variable {s : State} {b : BankId}

/-! ## A job is asked for in a completion claim (R152) -/

/-- A bank whose completion claim is in progress is at work, so that no job that joins it is a choice. -/
theorem joinQueue_of_busy {v : State} {job : Job} (h : (v.bank (bankOf job.index)).controller = .busy) :
    v.joinQueue job = v.setBank (bankOf job.index)
      { v.bank (bankOf job.index) with queue := (v.bank (bankOf job.index)).queue ++ [job] } :=
  if_neg (by rw [h]; decide)

/-- The job joins its bank's queue in the claim. -/
theorem jobAsked_join {u v : State} {job : Job} {waits : Bank → Bank} (hbusy : (u.bank b).controller = .busy)
    (hroom : (u.bank (bankOf job.index)).queue.length < 12) (hbanks : v.banks = u.banks)
    (hstorage : v.storage = u.storage) (hera : v.bodyEra = u.bodyEra) :
    JobAsked u ((v.joinQueue job).choicePoint b) b job waits := by
  have hbank : ∀ b', v.bank b' = u.bank b' := fun b' => by
    rw [bank, hbanks]
    rfl
  obtain ⟨hother, hwork, hidle, hcells⟩ := jobJoins_joinQueue v job
  simp only [hbank] at hother hwork hidle
  have hmade := choiceMade_choicePoint (v.joinQueue job) b
  have hkept : ∀ b', b' ≠ b → ((v.joinQueue job).choicePoint b).bank b' = (v.joinQueue job).bank b' := fun b' =>
    (queue_choicePoint _ b b').2
  refine ⟨fun hc => ?_, fun hc => ⟨?_, fun h => ?_, fun h => ?_⟩, fun b' hb hbc => ?_, fun hclean i => ?_⟩
  · dsimp only
    rw [if_pos hroom, ← hwork (Or.inl (by rw [hc]; exact hbusy)), hc]
    exact hmade
  · rw [← hother b (Ne.symm hc)]
    exact hmade
  · dsimp only
    rw [if_pos hroom, hkept _ hc]
    exact hidle h.2
  · dsimp only
    rw [if_pos hroom, hkept _ hc]
    refine hwork ?_
    have hno : ¬ ((u.bank (bankOf job.index)).controller = .idleClosed ∨
        (u.bank (bankOf job.index)).controller = .idleOpen) := fun h' => h ⟨hroom, h'⟩
    cases hcon : (u.bank (bankOf job.index)).controller with
    | idleClosed => exact absurd (Or.inl hcon) hno
    | idleOpen => exact absurd (Or.inr hcon) hno
    | busy => exact Or.inl rfl
    | refreshing => exact Or.inr rfl
  · rw [hkept b' hb, hother b' hbc]
  · have hv : SameBodies u v := sameBodies_of_openPages (fun b' => by rw [hbank]) hstorage hera hclean
    have hjoined : SameBodies v (v.joinQueue job) := by
      unfold joinQueue
      dsimp only
      have hset := sameBodies_setBank v (bankOf job.index)
        { v.bank (bankOf job.index) with queue := (v.bank (bankOf job.index)).queue ++ [job] } hv.clean rfl
      split
      · exact hset.comp (sameBodies_choicePoint _ _ hset.clean)
      · exact hset
    exact ((hv.comp hjoined).comp (sameBodies_choicePoint _ b (hv.comp hjoined).clean)).cells i

/-- The queue of the job's bank is full: its issuer waits there. -/
theorem jobAsked_wait {u v : State} {job : Job} {waits : Bank → Bank}
    (hfull : 12 ≤ (u.bank (bankOf job.index)).queue.length)
    (hbanks : v.banks = place u.banks (bankOf job.index) (waits (u.bank (bankOf job.index))))
    (hopen : ∀ k, (waits k).openPage = k.openPage) (hstorage : v.storage = u.storage) (hera : v.bodyEra = u.bodyEra) :
    JobAsked u (v.choicePoint b) b job waits := by
  have hroom : ¬ (u.bank (bankOf job.index)).queue.length < 12 := Nat.not_lt.mpr hfull
  have hbank : ∀ b', v.bank b' = if b' = bankOf job.index then waits (u.bank (bankOf job.index)) else u.bank b' :=
    fun b' => by
      rw [bank, hbanks, pick_place]
      rfl
  have hmade := choiceMade_choicePoint v b
  have hkept : ∀ b', b' ≠ b → (v.choicePoint b).bank b' = v.bank b' := fun b' => (queue_choicePoint _ b b').2
  rw [hbank] at hmade
  refine ⟨fun hc => ?_, fun hc => ⟨?_, fun h => absurd h.1 hroom, fun _ => ?_⟩, fun b' hb hbc => ?_, fun hclean i => ?_⟩
  · dsimp only
    rw [if_neg hroom]
    rw [if_pos hc.symm] at hmade
    exact hmade
  · rw [if_neg (Ne.symm hc)] at hmade
    exact hmade
  · dsimp only
    rw [if_neg hroom, hkept _ hc, hbank, if_pos rfl]
  · rw [hkept b' hb, hbank, if_neg hbc]
  · have hv : SameBodies u v := by
      refine sameBodies_of_openPages (fun b' => ?_) hstorage hera hclean
      rw [hbank]
      split
      · next hb => rw [hopen, hb]
      · rfl
    exact (hv.comp (sameBodies_choicePoint _ b hv.clean)).cells i

/-! ## The engine asks in a completion claim -/

/-- What the engine's next job leaves in a completion claim of bank `b`. -/
theorem choicePoint_askEngine {u v : State} {e : Progress} {job : Job} (hv : v = { u with engine := some e })
    (hbusy : (u.bank b).controller = .busy) :
    let t := (v.askEngine job).choicePoint b
    JobAsked u t b job (fun k => { k with engineWaiting := some job }) ∧
      t = { u with
        banks := t.banks
        storage := t.storage
        engine := some { e with
          phase := if (u.bank (bankOf job.index)).queue.length < 12 then .job else .admitting
          jobs := e.jobs ++ [⟨job, none⟩] } } := by
  intro t
  have hengine : v.engine = some e := by rw [hv]
  have hbank : ∀ b', v.bank b' = u.bank b' := fun b' => by
    rw [hv]
    rfl
  by_cases hroom : (u.bank (bankOf job.index)).queue.length < 12
  · have hask := askEngine_place hengine (job := job) (by rw [hbank]; exact hroom)
    rw [if_pos hroom]
    refine ⟨?_, ?_⟩
    · simp only [t, hask]
      exact jobAsked_join hbusy hroom (by rw [hv]) (by rw [hv]) (by rw [hv])
    · have hrest : t = { v.askEngine job with banks := t.banks, storage := t.storage } := choicePoint_rest _ b
      rw [hask, joinQueue_rest, hv] at hrest
      exact hrest
  · have hfull : 12 ≤ (u.bank (bankOf job.index)).queue.length := Nat.le_of_not_lt hroom
    have hask := askEngine_full hengine (job := job) (by rw [hbank]; exact hfull)
    rw [if_neg hroom]
    refine ⟨?_, ?_⟩
    · simp only [t, hask]
      exact jobAsked_wait hfull (by rw [hbank, hv]) (fun _ => rfl) (by rw [hv]) (by rw [hv])
    · have hrest : t = { v.askEngine job with banks := t.banks, storage := t.storage } := choicePoint_rest _ b
      rw [hask, hv] at hrest
      exact hrest

/-- The engine asks for its next job in the completion claim of a bank: the tables and the answer stay, and the grant
and the choice do the rest. -/
theorem engineAsks {e : Progress} {job next : Job} {rest : List Job} {v : State}
    (hbusy : (s.bank b).controller = .busy) (hq : (s.bank b).queue = job :: rest)
    (hv : v = { s.leaveHead b with engine := some e }) :
    let t := (v.askEngine next).choicePoint b
    t.tables = s.tables ∧ t.iface = s.iface ∧ t.answerBuffer = s.answerBuffer ∧
      ∀ u, PlaceGranted s u b rest →
        JobAsked u t b next (fun k => { k with engineWaiting := some next }) ∧
        t = { u with
          banks := t.banks
          storage := t.storage
          engine := some { e with
            phase := if (u.bank (bankOf next.index)).queue.length < 12 then .job else .admitting
            jobs := e.jobs ++ [⟨next, none⟩] } } := by
  intro t
  have hasked := choicePoint_askEngine (job := next) hv ((leaveHead_bank s b).1.trans hbusy)
  refine ⟨(congrArg State.tables hasked.2).trans (leaveHead_tables s b), (congrArg State.iface hasked.2).trans ?_,
    (congrArg State.answerBuffer hasked.2).trans ?_, fun u hu => ?_⟩
  · show (s.leaveHead b).iface = s.iface
    rw [leaveHead_rest]
  · show (s.leaveHead b).answerBuffer = s.answerBuffer
    rw [leaveHead_rest]
  · rw [← leaveHead_of_placeGranted s u b job rest hq hu]
    exact hasked

/-! ## The target read of an alias AMEND (R84) -/

theorem engineTakesRead_amend {e : Progress} {a : AmendArgs} {i : Index} {force : Bool} {c : AmendChanges}
    (h : s.engine = some e) (hr : e.request = .amend a) (hi : indexOf a.index = some i)
    (hf : flagOf a.force = some force) (hc : changesOf a = some c) (t : Index) (tg : Generation) (r : ReadResult) :
    s.engineTakesRead t tg r = (s.setJobResult (.read r)).amendTargetRead i a.generation c force t tg r := by
  unfold engineTakesRead
  simp only [h, hr, hi, hf, hc]

/-- The answer that refuses an alias AMEND at its target's read, absent where it goes on. -/
def amendTargetRefusal (T : Tables) (t : Index) (r : ReadResult) : Option AnswerStatus :=
  if (T.entry t).state = .damaged then some .damaged
  else if (T.entry t).state = .draining then some .state
  else if r.agreed = false then some .damaged
  else none

theorem amendTargetRead_of_refusal {e : Progress} {t : Index} {r : ReadResult} {st : AnswerStatus}
    (h : s.engine = some e) (hst : amendTargetRefusal s.tables t r = some st) (i : Index) (g : Generation)
    (c : AmendChanges) (force : Bool) (tg : Generation) :
    s.amendTargetRead i g c force t tg r =
      endsAnswered s (if r.agreed = true then s.tables else s.tables.damageClaim t tg) e e.jobs st [] := by
  have hclaim : (s.readClaim t tg r).engine = some e := by
    rw [readClaim_tables]
    exact h
  unfold amendTargetRefusal at hst
  unfold amendTargetRead
  by_cases hdamaged : (s.tables.entry t).state = .damaged
  · rw [if_pos hdamaged] at hst ⊢
    rw [refuse, answer_of_engine h, readClaim_tables, Option.some.inj hst]
    rfl
  · rw [if_neg hdamaged] at hst ⊢
    by_cases hdraining : (s.tables.entry t).state = .draining
    · rw [if_pos hdraining] at hst ⊢
      rw [refuse, answer_of_engine h, readClaim_tables, Option.some.inj hst]
      rfl
    · rw [if_neg hdraining] at hst ⊢
      by_cases hagreed : r.agreed = false
      · rw [if_pos hagreed] at hst ⊢
        rw [refuse, answer_of_engine hclaim, readClaim_tables, Option.some.inj hst]
        rfl
      · rw [if_neg hagreed] at hst
        exact (nomatch hst)

theorem amendTargetRead_of_pass {t : Index} {r : ReadResult} (hst : amendTargetRefusal s.tables t r = none) (i : Index)
    (g : Generation) (c : AmendChanges) (force : Bool) (tg : Generation) :
    s.amendTargetRead i g c force t tg r =
      (s.setTargetExtent r.body.extent).askEngine (.amendJob i g c force) := by
  unfold amendTargetRefusal at hst
  unfold amendTargetRead
  split_ifs at hst ⊢
  rfl

end State

/-- Settles O38: the refusals by the target's state and read, and the AMEND job asked for. -/
theorem aliasAmendTargetRead : Obligations.AliasAmendTargetRead := by
  intro s b tg i tgen rest e a force c hbusy hq he hr hi hf hc r
  obtain ⟨ph, hph⟩ := State.leaveHead_engine (b := b) he
  have hexec := State.exec_bodyReadCompletion hbusy hq
  rw [State.issuerTakes, State.engineTakesRead_amend hph hr hi hf hc] at hexec
  have htaken := State.setJobResult_of_engine (.read r) hph
  generalize (s.leaveHead b).setJobResult (.read r) = v at hexec htaken
  have htables : v.tables = s.tables := by
    rw [htaken]
    exact State.leaveHead_tables s b
  have hengine : v.engine =
      some { e with phase := ph, jobs := e.jobs.map (withResult (.read r)) } := by
    rw [htaken]
  refine ⟨fun st hst => ?_, fun hdamaged hdraining hagreed => ?_⟩
  · have hrefuses : v.amendTargetRead i a.generation c force tg tgen r =
        State.endsAnswered (s.leaveHead b) (if r.agreed = true then s.tables else s.tables.damageClaim tg tgen) e
          (e.jobs.map (withResult (.read r))) st [] := by
      rw [State.amendTargetRead_of_refusal hengine (by rw [htables]; exact hst), htables, htaken]
      rfl
    have hend := hexec.trans (congrArg (fun w => Host.Outcome.next (State.choicePoint w b)) hrefuses)
    obtain ⟨htables', hiface, hanswer, hends⟩ := State.choicePoint_endsAnswered
      (if r.agreed = true then s.tables else s.tables.damageClaim tg tgen) e
      (e.jobs.map (withResult (.read r))) st [] hq
    have hkind : requestKind e.request = 0x0C := by
      rw [hr]
      rfl
    rw [hkind] at hanswer
    refine ⟨_, hend, hanswer, hiface, htables', fun u hu => ?_⟩
    rw [htables', ← hkind]
    exact hends u hu
  · intro job
    have hpass : State.amendTargetRefusal v.tables tg r = none := by
      rw [htables, State.amendTargetRefusal, if_neg hdamaged, if_neg hdraining, if_neg (by simp [hagreed])]
    rw [State.amendTargetRead_of_pass hpass, htaken] at hexec
    obtain ⟨htables', hiface, hanswer, hasks⟩ := State.engineAsks (next := job)
      (e := { e with phase := ph, jobs := e.jobs.map (withResult (.read r)), targetExtent := some r.body.extent })
      hbusy hq rfl
    exact ⟨_, hexec, htables', hiface, hanswer, hasks⟩

/-! ## The end of an AMEND's write half (R149) -/

/-- Settles O41: the job leaves, its place is granted, and its request is answered. -/
theorem amendJobCompletes : Obligations.AmendJobCompletes := by
  intro s u b i g c force rest e hbusy hhalf hq hu he
  obtain ⟨ph, hph⟩ := State.leaveHead_engine (b := b) he
  have hleave := leaveHead_of_placeGranted s u b _ rest hq hu
  have hexec : exec (.amendJobCompletion b) s = .next (((s.leaveHead b).answer .done []).choicePoint b) := by
    show Host.Outcome.next (s.completeAmend b) = _
    simp only [State.completeAmend, hbusy, hhalf, hq]
  have hanswer : (s.leaveHead b).answer .done [] =
      State.endsAnswered (s.leaveHead b) (s.leaveHead b).tables e e.jobs .done [] := by
    rw [State.answer_of_engine hph]
    rfl
  rw [hanswer] at hexec
  obtain ⟨-, -, -, hends⟩ := State.choicePoint_endsAnswered (s.leaveHead b).tables e e.jobs .done [] hq
  obtain ⟨hmade, hother, hcells, hrest⟩ := hends u hu
  refine ⟨_, hexec, hmade, hother, hcells, hrest.trans ?_⟩
  rw [State.endsAnswered, hleave]

end Sys2Proof.Machine
end

section
/-! SUPPORT. The RELEASE of a hold, and the tests that leave a record as it is. -/

namespace Sys2Proof.Machine

namespace Tables

variable {T : Tables}

/-- A test for completion leaves the tables as they are on a record that is not DRAINING (R13). -/
theorem testDraining_of_state (skip : Option Index) {i : Index} (h : (T.entry i).state ≠ .draining) :
    testDraining skip T i = T :=
  testDraining_of_not T skip i (completes_of_state _ h)

/-- A hold's end tests no record where neither of its two is DRAINING (R55). -/
theorem testRecords_of_state (skip : Option Index) {h : HeldHold} (hi : (T.entry h.index).state ≠ .draining)
    (hr : (T.entry h.resolved).state ≠ .draining) : testRecords skip T h = T := by
  unfold testRecords
  dsimp only
  rw [testDraining_of_state skip hi]
  split
  · rfl
  · exact testDraining_of_state skip hr

end Tables

namespace State

variable {s : State}

theorem exec_release {p : PortId} {f : ReleaseFrame} (h : s.hears p) (hp : (s.tables.port p).state ≠ .resetting)
    (ht : s.outstanding p f.tag = false) : exec (.release p f) s = .next (s.takeRelease p f.tag f.token) :=
  congrArg Host.Outcome.next (receive_release s p f h.1 h.2 hp ht)

theorem releaseToken_of_val {k : BitVec 4} {t : Token} (h : k.toNat = t.val) : releaseToken k = some t := by
  unfold releaseToken
  rw [dif_pos (by omega)]
  exact congrArg some (Fin.ext h)

theorem releaseToken_of_ge {k : BitVec 4} (h : 8 ≤ k.toNat) : releaseToken k = none :=
  dif_neg (by omega)

/-- The claim of a RELEASE that names an entry (R57). -/
theorem takeRelease_of_token {p : PortId} {g : Tag} {k : BitVec 4} {t : Token} (h : k.toNat = t.val) :
    s.takeRelease p g k = { s with
      tables := (releaseEntry s.tables p t).placeFrame p (.answer g (releaseVerdict k (s.tables.hold p t))) } := by
  unfold takeRelease onTables
  simp only [releaseToken_of_val h]

theorem releaseEntry_held {T : Tables} {p : PortId} {t : Token} {h : HeldHold} (hh : T.hold p t = .held h) :
    releaseEntry T p t = Tables.testRecords none (T.unpin p t h .empty) h := by
  unfold releaseEntry
  rw [hh]

theorem releaseEntry_broken {T : Tables} {p : PortId} {t : Token} {r : BreakReason} {w : Bool}
    (hh : T.hold p t = .broken r w) : releaseEntry T p t = (T.withdraw p t).setHold p t .empty := by
  unfold releaseEntry
  rw [hh]

theorem releaseEntry_free {T : Tables} {p : PortId} {t : Token} (hh : T.hold p t = .reserved ∨ T.hold p t = .empty) :
    releaseEntry T p t = T := by
  unfold releaseEntry
  rcases hh with hh | hh <;> rw [hh]

end State

open State in
/-- Settles O7: the entry named decides the RELEASE. -/
theorem releaseAnswersByEntry : Obligations.ReleaseAnswersByEntry := by
  refine ⟨fun p f s tok h hears hp ht htok hheld hindex hresolved => ?_, fun p f s hears hp ht => ⟨?_, fun hother => ?_⟩⟩
  · have hstate : ∀ i, ((s.tables.unpin p tok h .empty).entry i).state = (s.tables.entry i).state := fun i => by
      rw [Tables.unpin_entry]
    have hentry : releaseEntry s.tables p tok = s.tables.unpin p tok h .empty := by
      rw [releaseEntry_held hheld]
      exact Tables.testRecords_of_state none (by rwa [hstate]) (by rwa [hstate])
    refine ⟨_, (exec_release hears hp ht).trans (congrArg _ (takeRelease_of_token htok)), ?_⟩
    rw [hentry, hheld]
    refine ⟨fun p' t' => Tables.unpin_hold .., Tables.unpin_fillOrder s.tables p tok h .empty,
      fun i => Tables.unpin_entry s.tables p tok h .empty i, ?_⟩
    have hqueue : (s.tables.unpin p tok h .empty).outbound = s.tables.outbound := by
      rw [Tables.unpin_rest]
    unfold Tables.placeFrame Tables.setQueue Tables.queueOf
    rw [hqueue, Tables.unpin_rest]
    rfl
  · intro tok r w htok hbroken
    refine ⟨_, (exec_release hears hp ht).trans (congrArg _ (takeRelease_of_token htok)), ?_⟩
    rw [releaseEntry_broken hbroken, hbroken]
    refine ⟨fun p' t' => Tables.hold_setHold .., fun p' => ?_, rfl⟩
    show (Tables.placeFrame _ p _).queueOf p' = _
    rw [Tables.queueOf_placeFrame]
    change (if p' = p then (s.tables.withdraw p tok).queueOf p ++ _ else (s.tables.withdraw p tok).queueOf p') = _
    rw [Tables.queueOf_withdraw, Tables.queueOf_withdraw, if_pos rfl]
    split <;> rfl
  · rw [exec_release hears hp ht]
    rcases hother with hge | ⟨tok, htok, hfree⟩
    · unfold takeRelease
      rw [releaseToken_of_ge hge]
      rfl
    · rw [takeRelease_of_token htok, releaseEntry_free hfree]
      rcases hfree with hfree | hfree <;> rw [hfree] <;> rfl

end Sys2Proof.Machine
end

section
/-! SUPPORT. The laws of the status entries, of the alias lists and of the pins, which every operation over the records
keeps by themselves (R3, R18, R52). -/

namespace Sys2Proof.Machine

/-! ## Counting -/

/-- The count of the items that satisfy a test, where the test changes at one item. -/
theorem length_filter_update {α : Type} [DecidableEq α] {l : List α} (hl : l.Nodup) {x : α} (hx : x ∈ l)
    (f f' : α → Bool) (h : ∀ y, y ≠ x → f' y = f y) :
    (l.filter f').length + (f x).toNat = (l.filter f).length + (f' x).toNat := by
  induction l with
  | nil => exact absurd hx List.not_mem_nil
  | cons a l ih =>
    obtain ⟨ha, hl⟩ := List.nodup_cons.mp hl
    by_cases hax : a = x
    · subst hax
      have hsame : l.filter f' = l.filter f := List.filter_congr fun y hy => h y (by rintro rfl; exact ha hy)
      rw [List.filter_cons, List.filter_cons, hsame]
      cases f a <;> cases f' a <;> simp
    · have := ih hl ((List.mem_cons.mp hx).resolve_left (Ne.symm hax))
      rw [List.filter_cons, List.filter_cons, h a hax]
      cases f a <;> simp <;> omega

namespace State

open Tables

/-! ## One status entry (R3) -/

namespace EntryFits

variable {e : StatusEntry}

theorem pinned (h : EntryFits e) (n : Nat) (w : Option PortId)
    (hn : e.state = .free ∨ e.state = .pending ∨ e.state = .damaged → n = 0) (hw : e.state = .free → w = none) :
    EntryFits { e with pins := n, writer := w } := by
  obtain ⟨hfree, hused, hpending, -, hnotice⟩ := h
  refine ⟨fun hs => ?_, hused, hpending, fun hs => hn (Or.inr hs), hnotice⟩
  obtain ⟨h1, h2, h3, h4, -, -, h7⟩ := hfree hs
  exact ⟨h1, h2, h3, h4, hn (Or.inl hs), hw hs, h7⟩

theorem raised (h : EntryFits e) (hs : e.state ≠ .free) (r : RecReason) :
    EntryFits { e with
      reasons := e.reasons.add r
      noticeGen := if e.reasons.isEmpty then some e.generation else e.noticeGen } := by
  obtain ⟨-, hused, hpending, hpins, hnotice⟩ := h
  refine ⟨fun hf => absurd hf hs, hused, hpending, hpins, ?_⟩
  have hadd : e.reasons.add r ≠ ⟨false, false, false, false⟩ := fun he => by
    have := isEmpty_add e.reasons r
    rw [he] at this
    cases this
  rw [if_neg hadd, if_neg hs]
  split_ifs with he
  · rfl
  · have hne : e.reasons ≠ ⟨false, false, false, false⟩ := fun h0 => he ((isEmpty_iff _).mpr h0)
    rw [hnotice, if_neg hne, if_neg hs]

theorem freed (h : EntryFits e) (hs : e.state ≠ .free) :
    EntryFits { StatusEntry.freeAt (e.generation + 1) with reasons := e.reasons, noticeGen := e.noticeGen } := by
  obtain ⟨-, -, -, -, hnotice⟩ := h
  refine ⟨fun _ => ⟨rfl, rfl, rfl, rfl, rfl, rfl, rfl⟩, fun hf => absurd rfl hf, fun _ => rfl, fun _ => rfl, ?_⟩
  rw [if_neg hs] at hnotice
  change e.noticeGen = if e.reasons = _ then none else some (e.generation + 1 - 1)
  rw [hnotice, BitVec.add_sub_cancel]

theorem erased (h : EntryFits e) (i : Index) : EntryFits { e with aliases := e.aliases.erase i } := by
  obtain ⟨hfree, hused, hpending, hpins, hnotice⟩ := h
  have herase : e.aliases = [] → e.aliases.erase i = [] := fun h0 => by rw [h0]; rfl
  refine ⟨fun hs => ?_, fun hs => ?_, fun hs => herase (hpending hs), hpins, hnotice⟩
  · obtain ⟨h1, h2, h3, h4, h5⟩ := hfree hs
    exact ⟨h1, h2, h3, herase h4, h5⟩
  · obtain ⟨h1, h2⟩ := hused hs
    exact ⟨h1, h2.imp_right fun ⟨h3, h4, h5⟩ => ⟨h3, h4, herase h5⟩⟩

theorem undated (h : EntryFits e) : EntryFits { e with deadline := none } := by
  obtain ⟨hfree, hused, hpending, hpins, hnotice⟩ := h
  refine ⟨fun hs => ?_, hused, hpending, hpins, hnotice⟩
  obtain ⟨h1, h2, h3, h4, h5, h6, -⟩ := hfree hs
  exact ⟨h1, h2, h3, h4, h5, h6, rfl⟩

theorem dated (h : EntryFits e) (hs : e.state ≠ .free) (d : Epoch) :
    EntryFits { e with deadline := some d } := by
  obtain ⟨-, hused, hpending, hpins, hnotice⟩ := h
  exact ⟨fun hf => absurd hf hs, hused, hpending, hpins, hnotice⟩

/-- A record that is not FREE takes another state than FREE and PENDING; DAMAGED with no pin. -/
theorem changed (h : EntryFits e) (hs : e.state ≠ .free) (x : RecState) (hfree : x ≠ .free)
    (hpending : x ≠ .pending) (hpins : x = .damaged → e.pins = 0) : EntryFits { e with state := x } := by
  obtain ⟨-, hused, -, -, hnotice⟩ := h
  refine ⟨fun hf => absurd hf hfree, fun _ => hused hs, fun hf => absurd hf hpending, fun hf => ?_, ?_⟩
  · exact hpins (hf.resolve_left hpending)
  · rw [if_neg hs] at hnotice
    change e.noticeGen = if e.reasons = _ then none else some (if x = .free then _ else _)
    rw [if_neg hfree, hnotice]

theorem freeAt (g : Generation) : EntryFits (.freeAt g) :=
  ⟨fun _ => ⟨rfl, rfl, rfl, rfl, rfl, rfl, rfl⟩, fun hf => absurd rfl hf, fun _ => rfl, fun _ => rfl, rfl⟩

end EntryFits

/-! ## The pins (R52) -/

/-- The entry is HELD and rests on record `i`. -/
def restsAt (T : Tables) (i : Index) (x : PortId × Token) : Bool :=
  match T.hold x.1 x.2 with
  | .held h => restsOn i h
  | .empty | .reserved | .broken _ _ => false

/-- How many HELD entries rest on record `i`. -/
def restCount (T : Tables) (i : Index) : Nat := (allEntries.filter (restsAt T i)).length

theorem restsOn_iff (i : Index) (h : HeldHold) : restsOn i h = true ↔ i = h.index ∨ i = h.resolved := by
  unfold restsOn
  rw [Bool.or_eq_true, beq_iff_eq, beq_iff_eq, eq_comm (a := h.index), eq_comm (a := h.resolved)]

theorem restCount_eq (T : Tables) (i : Index) :
    (allPorts.flatMap (restingTokens T i)).length = restCount T i := by
  unfold restCount allEntries
  rw [List.filter_flatMap, List.length_flatMap, List.length_flatMap]
  congr 1
  refine List.map_congr_left fun p _ => ?_
  rw [List.filter_map, List.length_map]
  unfold restingTokens
  congr 1
  refine List.filter_congr fun t _ => ?_
  unfold restsAt Function.comp
  dsimp only
  cases T.hold p t with
  | held h => simp [restsOn, beq_eq_decide, Bool.decide_or]
  | _ => rfl

theorem pinLaw_iff (T : Tables) :
    PinLaw T ↔ ∀ i, (T.entry i).pins = restCount T i ∧ (T.entry i).pins ≤ 15 := by
  unfold PinLaw
  simp only [restCount_eq]

theorem nodup_allEntries : allEntries.Nodup := by decide

theorem mem_allEntries (x : PortId × Token) : x ∈ allEntries := by
  obtain ⟨p, t⟩ := x
  revert p t
  decide

theorem restCount_of_holds {T T' : Tables} (h : ∀ p t, T'.hold p t = T.hold p t) (i : Index) :
    restCount T' i = restCount T i := by
  unfold restCount restsAt
  simp only [h]

/-- The count where one entry changes. -/
theorem restCount_update {T T' : Tables} (p : PortId) (t : Token)
    (h : ∀ p' t', (p', t') ≠ (p, t) → T'.hold p' t' = T.hold p' t') (i : Index) :
    restCount T' i + (restsAt T i (p, t)).toNat = restCount T i + (restsAt T' i (p, t)).toNat := by
  refine length_filter_update nodup_allEntries (mem_allEntries (p, t)) _ _ fun y hy => ?_
  unfold restsAt
  rw [h y.1 y.2 hy]

/-- A HELD entry that rests on a record counts among its pins. -/
theorem restCount_pos {T : Tables} {p : PortId} {t : Token} {h : HeldHold} (hh : T.hold p t = .held h) {i : Index}
    (hi : i = h.index ∨ i = h.resolved) : 0 < restCount T i := by
  refine List.length_pos_of_mem (a := (p, t)) (List.mem_filter.mpr ⟨mem_allEntries _, ?_⟩)
  unfold restsAt
  dsimp only
  rw [hh]
  exact (restsOn_iff i h).mpr hi

/-- The end of a hold: one rests less on each record that it rested on (R52, R55). -/
theorem restCount_ended {T T' : Tables} (p : PortId) (t : Token) (y : HeldHold) (hy : T.hold p t = .held y)
    (next : HoldEntry) (hnext : isHeld next = false)
    (hh : ∀ p' t', T'.hold p' t' = if p' = p ∧ t' = t then next else T.hold p' t') (j : Index) :
    restCount T' j + (decide (j = y.index ∨ j = y.resolved)).toNat = restCount T j := by
  have hupd := restCount_update (T := T) (T' := T') p t (fun p' t' hne => by
    rw [hh, if_neg fun e => hne (Prod.ext e.1 e.2)]) j
  have h1 : restsAt T j (p, t) = decide (j = y.index ∨ j = y.resolved) := by
    unfold restsAt
    dsimp only
    rw [hy]
    exact Bool.eq_iff_iff.mpr ((restsOn_iff j y).trans (decide_eq_true_iff).symm)
  have h2 : restsAt T' j (p, t) = false := by
    unfold restsAt
    dsimp only
    rw [hh, if_pos ⟨rfl, rfl⟩]
    cases next <;> first | rfl | cases hnext
  rw [h1, h2] at hupd
  exact hupd

/-- The pins fall with the holds (R52, R55). -/
theorem pinLaw_ended {T T' : Tables} (h : PinLaw T) (p : PortId) (t : Token) (y : HeldHold)
    (hy : T.hold p t = .held y) (next : HoldEntry) (hnext : isHeld next = false)
    (hh : ∀ p' t', T'.hold p' t' = if p' = p ∧ t' = t then next else T.hold p' t')
    (he : ∀ j, (T'.entry j).pins =
      if j = y.index ∨ j = y.resolved then (T.entry j).pins - 1 else (T.entry j).pins) : PinLaw T' := by
  refine (pinLaw_iff T').mpr fun j => ?_
  obtain ⟨h1, h2⟩ := (pinLaw_iff T).mp h j
  have hcount := restCount_ended p t y hy next hnext hh j
  rw [he]
  by_cases hj : j = y.index ∨ j = y.resolved
  · simp only [hj, decide_true, Bool.toNat_true] at hcount
    simp only [hj, if_true]
    omega
  · simp only [hj, decide_false, Bool.toNat_false] at hcount
    simp only [hj, if_false]
    omega

/-- A change that belongs to neither a pin nor a hold. -/
theorem pinLaw_of_same {T T' : Tables} (h : PinLaw T) (hpins : ∀ j, (T'.entry j).pins = (T.entry j).pins)
    (hholds : ∀ p t, T'.hold p t = T.hold p t) : PinLaw T' :=
  (pinLaw_iff T').mpr fun j => by
    rw [hpins, restCount_of_holds hholds]
    exact (pinLaw_iff T).mp h j

/-! ## The three laws together -/

/-- The laws that claims on the records keep without leaning on any other. -/
structure Core (T : Tables) : Prop where
  entries : EntryLaw T
  aliases : AliasLaw T
  pins : PinLaw T

namespace Core

variable {T T' : Tables}

theorem pins_eq (h : Core T) (i : Index) : (T.entry i).pins = restCount T i :=
  ((pinLaw_iff T).mp h.pins i).1

theorem pins_le (h : Core T) (i : Index) : (T.entry i).pins ≤ 15 := (h.pins i).2

/-- The fields of a FREE record. -/
theorem free (h : Core T) {i : Index} (hi : (T.entry i).state = .free) :
    (T.entry i).domain = none ∧ (T.entry i).kind = none ∧ (T.entry i).target = none ∧
      (T.entry i).aliases = [] ∧ (T.entry i).pins = 0 ∧ (T.entry i).writer = none ∧
      (T.entry i).deadline = none := (h.entries i).1 hi

/-- A record in an alias list has that list's record for target; it is an alias, with no list of its own. -/
theorem of_mem (h : Core T) {i a : Index} (ha : a ∈ (T.entry i).aliases) :
    (T.entry a).target = some i ∧ (T.entry a).state ≠ .free ∧ (T.entry a).aliases = [] ∧ a ≠ i := by
  have ht := (h.aliases.1 i a).mp ha
  have hs : (T.entry a).state ≠ .free := fun hf => by
    have := (h.free hf).2.2.1
    rw [ht] at this
    cases this
  have hal : (T.entry a).aliases = [] := by
    rcases ((h.entries a).2.1 hs).2 with ⟨-, h0⟩ | ⟨-, -, h0⟩
    · rw [ht] at h0
      cases h0
    · exact h0
  refine ⟨ht, hs, hal, ?_⟩
  rintro rfl
  rw [hal] at ha
  exact absurd ha List.not_mem_nil

/-- The target of an alias holds it in its list, and is a DATA record. -/
theorem of_target (h : Core T) {i t : Index} (ht : (T.entry i).target = some t) :
    i ∈ (T.entry t).aliases ∧ (T.entry t).target = none ∧ t ≠ i ∧ (T.entry t).state ≠ .free := by
  have hm := (h.aliases.1 t i).mpr ht
  have hs : (T.entry t).state ≠ .free := fun hf => by
    rw [(h.free hf).2.2.2.1] at hm
    exact absurd hm List.not_mem_nil
  refine ⟨hm, ?_, fun e => (h.of_mem hm).2.2.2 e.symm, hs⟩
  rcases ((h.entries t).2.1 hs).2 with ⟨-, h0⟩ | ⟨-, -, h0⟩
  · exact h0
  · rw [h0] at hm
    exact absurd hm List.not_mem_nil

theorem ne_zero {i : Index} (hi : (T.entry i).state ≠ .free) : i ≠ 0 := by
  rintro rfl
  exact hi rfl

/-- A change of fields that neither an alias list nor a target belongs to. -/
theorem of_entries (h : Core T) (hfits : ∀ j, EntryFits (T'.entry j))
    (haliases : ∀ j, (T'.entry j).aliases = (T.entry j).aliases)
    (htarget : ∀ j, (T'.entry j).target = (T.entry j).target)
    (hpins : ∀ j, (T'.entry j).pins = restCount T' j ∧ (T'.entry j).pins ≤ 15) : Core T' where
  entries := hfits
  aliases := ⟨fun i a => by rw [haliases, htarget]; exact h.aliases.1 i a,
    fun i => by rw [haliases]; exact h.aliases.2 i⟩
  pins := (pinLaw_iff T').mpr hpins

/-- A change of fields that neither an alias list, a target nor a pin belongs to. -/
theorem of_same (h : Core T) (hfits : ∀ j, EntryFits (T'.entry j))
    (haliases : ∀ j, (T'.entry j).aliases = (T.entry j).aliases)
    (htarget : ∀ j, (T'.entry j).target = (T.entry j).target)
    (hpins : ∀ j, (T'.entry j).pins = (T.entry j).pins) (hholds : ∀ p t, T'.hold p t = T.hold p t) : Core T' :=
  h.of_entries hfits haliases htarget fun j => by
    rw [hpins, restCount_of_holds hholds]
    exact ⟨h.pins_eq j, h.pins_le j⟩

theorem of_entry_eq (h : Core T) (he : ∀ j, T'.entry j = T.entry j) (hholds : ∀ p t, T'.hold p t = T.hold p t) :
    Core T' :=
  h.of_same (fun j => he j ▸ h.entries j) (fun j => by rw [he]) (fun j => by rw [he]) (fun j => by rw [he]) hholds

/-- One record's entry changes in its state, deadline or reasons. -/
theorem modEntry (h : Core T) (i : Index) (f : StatusEntry → StatusEntry)
    (hfits : i ≠ 0 → EntryFits (f (T.entry i)))
    (hf : (f (T.entry i)).aliases = (T.entry i).aliases ∧ (f (T.entry i)).target = (T.entry i).target ∧
      (f (T.entry i)).pins = (T.entry i).pins) (he : ∀ j, T'.entry j = if j = i ∧ i ≠ 0 then f (T.entry j) else T.entry j)
    (hholds : ∀ p t, T'.hold p t = T.hold p t) : Core T' := by
  obtain ⟨ha, ht, hp⟩ := hf
  refine h.of_same (fun j => ?_) (fun j => ?_) (fun j => ?_) (fun j => ?_) hholds
  · rw [he]
    split_ifs with hj
    · rw [hj.1]
      exact hfits hj.2
    · exact h.entries j
  · rw [he]
    split_ifs with hj
    · rw [hj.1]
      exact ha
    · rfl
  · rw [he]
    split_ifs with hj
    · rw [hj.1]
      exact ht
    · rfl
  · rw [he]
    split_ifs with hj
    · rw [hj.1]
      exact hp
    · rfl

/-- The end of a hold: its pins fall, on each record it rests on (R52, R55). -/
theorem ended (h : Core T) (p : PortId) (t : Token) (y : HeldHold) (hy : T.hold p t = .held y) (next : HoldEntry)
    (hnext : isHeld next = false)
    (hh : ∀ p' t', T'.hold p' t' = if p' = p ∧ t' = t then next else T.hold p' t')
    (he : ∀ j, T'.entry j = { T.entry j with
      pins := if j = y.index ∨ j = y.resolved then (T.entry j).pins - 1 else (T.entry j).pins
      writer := if j = y.resolved ∧ y.access = .write then none else (T.entry j).writer }) : Core T' := by
  refine h.of_entries (fun j => ?_) (fun j => by rw [he]) (fun j => by rw [he]) fun j => ?_
  · rw [he]
    have hfit := h.entries j
    refine hfit.pinned _ _ (fun hs => ?_) fun hs => ?_
    · have h0 : (T.entry j).pins = 0 := by
        rcases hs with hs | hs
        · exact (hfit.1 hs).2.2.2.2.1
        · exact hfit.2.2.2.1 hs
      rw [h0]
      simp
    · rw [(hfit.1 hs).2.2.2.2.2.1]
      simp
  · exact (pinLaw_iff T').mp (pinLaw_ended h.pins p t y hy next hnext hh fun j => by rw [he]) j

theorem unpin (h : Core T) (p : PortId) (t : Token) (y : HeldHold) (hy : T.hold p t = .held y) :
    Core (T.unpin p t y .empty) :=
  h.ended p t y hy .empty rfl (fun p' t' => unpin_hold T p p' t t' y _) (T.unpin_entry p t y _)

theorem breakUnpin (h : Core T) (reason : BreakReason) (p : PortId) (t : Token) (y : HeldHold)
    (hy : T.hold p t = .held y) : Core (T.breakUnpin reason p t y) :=
  h.ended p t y hy (.broken reason (sendsBroken (T.port p).state)) rfl
    (fun p' t' => T.breakUnpin_hold reason p p' t t' y) (T.breakUnpin_entry reason p t y)

theorem raiseRecord (h : Core T) (i : Index) (r : RecReason) : Core (T.raiseRecord i r) := by
  have hs := (sameHolds_closed T).raiseRecord i r (SameHolds.refl T)
  refine h.of_same (fun j => ?_) (fun j => ?_) (fun j => ?_) (fun j => ?_) hs.hold
  · rw [raiseRecord_entries]
    by_cases hj : j = i ∧ (T.entry i).state ≠ .free
    · rw [if_pos hj]
      exact (h.entries j).raised (hj.1 ▸ hj.2) r
    · rw [if_neg hj]
      exact h.entries j
  all_goals
    rw [raiseRecord_entries]
    split <;> rfl

theorem leaveQueue (h : Core T) (i : Index) : Core (T.leaveQueue i) := by
  have hs := (sameHolds_closed T).leaveQueue i (SameHolds.refl T)
  refine h.of_same (fun j => ?_) (fun j => ?_) (fun j => ?_) (fun j => ?_) hs.hold
  · rw [leaveQueue_entry]
    split_ifs
    · exact (h.entries j).undated
    · exact h.entries j
  all_goals
    rw [leaveQueue_entry]
    split <;> rfl

theorem enterQueue (h : Core T) (i : Index) (d : Epoch) (hi : (T.entry i).state ≠ .free) :
    Core (T.enterQueue i d) := by
  have hs := (sameHolds_closed T).enterQueue i d (SameHolds.refl T)
  have h0 := ne_zero hi
  refine h.of_same (fun j => ?_) (fun j => ?_) (fun j => ?_) (fun j => ?_) hs.hold
  · rw [enterQueue_entry T i j d h0]
    split_ifs with hj
    · exact (h.entries j).dated (hj ▸ hi) d
    · exact h.entries j
  all_goals
    rw [enterQueue_entry T i _ d h0]
    split <;> rfl

/-- A record with no pin and no alias is freed, and leaves its target's list (R15). -/
theorem freed (h : Core T) (i : Index) (hi : (T.entry i).state ≠ .free) (hpins : (T.entry i).pins = 0)
    (haliases : (T.entry i).aliases = []) : Core (T.freed i) := by
  have h0 := ne_zero hi
  have hhold : ∀ p t, (T.freed i).hold p t = T.hold p t := fun p t => by rw [freed_rest]; rfl
  have hent := fun j => T.freed_entry i j h0
  have halias : ∀ j, ((T.freed i).entry j).aliases = if j = i then [] else if (T.entry i).target = some j then
      (T.entry j).aliases.erase i else (T.entry j).aliases := fun j => by
    rw [hent]
    split_ifs <;> rfl
  have htarget : ∀ j, ((T.freed i).entry j).target = if j = i then none else (T.entry j).target := fun j => by
    rw [hent]
    split_ifs <;> rfl
  refine ⟨fun j => ?_, ⟨fun j a => ?_, fun j => ?_⟩, (pinLaw_iff _).mpr fun j => ?_⟩
  · rw [hent]
    split_ifs with hj
    · exact (h.entries i).freed hi
    · exact (h.entries j).erased i
    · exact h.entries j
  · have hold := h.aliases.1 j a
    rw [halias, htarget]
    by_cases hji : j = i
    · subst hji
      rw [haliases] at hold
      simp only [if_true]
      split_ifs
      · simp
      · exact hold
    · rw [if_neg hji]
      by_cases hai : a = i
      · subst hai
        rw [if_pos rfl]
        refine iff_of_false ?_ (fun e => (nomatch e))
        split_ifs with ht
        · rw [(h.aliases.2 j).1.mem_erase_iff]
          exact fun e => e.1 rfl
        · exact fun e => ht (hold.mp e)
      · rw [if_neg hai]
        split_ifs with ht
        · rw [(h.aliases.2 j).1.mem_erase_iff, hold]
          simp [hai]
        · exact hold
  · rw [halias]
    have hold := h.aliases.2 j
    split_ifs
    · simp
    · exact ⟨hold.1.erase i, (List.length_erase_le).trans hold.2⟩
    · exact hold
  · have hp : ((T.freed i).entry j).pins = (T.entry j).pins := by
      rw [hent]
      split_ifs with hj
      · rw [hj, hpins]
        rfl
      · rfl
      · rfl
    rw [hp, restCount_of_holds hhold]
    exact ⟨h.pins_eq j, h.pins_le j⟩

theorem joinOrPark (h : Core T) (i : Index) : Core (T.joinOrPark i) :=
  h.of_entry_eq (T.joinOrPark_entry i) fun p t => by rw [joinOrPark_rest]; rfl

theorem of_completes {e : StatusEntry} (h : completes e = true) :
    e.state = .draining ∧ e.pins = 0 ∧ e.aliases = [] := by
  unfold completes at h
  simp only [Bool.and_eq_true, decide_eq_true_eq, List.isEmpty_iff] at h
  exact ⟨h.1.1, h.1.2, h.2⟩

/-- Raising DRAINED leaves what a completion tests. -/
theorem raiseRecord_fields (T : Tables) (i : Index) (r : RecReason) (j : Index) :
    ((T.raiseRecord i r).entry j).state = (T.entry j).state ∧ ((T.raiseRecord i r).entry j).pins = (T.entry j).pins ∧
      ((T.raiseRecord i r).entry j).aliases = (T.entry j).aliases ∧
      ((T.raiseRecord i r).entry j).target = (T.entry j).target ∧
      ((T.raiseRecord i r).entry j).deadline = (T.entry j).deadline := by
  rw [raiseRecord_entries]
  split <;> exact ⟨rfl, rfl, rfl, rfl, rfl⟩

theorem testTarget (h : Core T) (skip : Option Index) (t : Index) (ht : (T.entry t).target = none) :
    Core (testTarget skip T t) := by
  rw [testTarget_eq T skip t ht]
  split_ifs with hc
  · obtain ⟨hs, hp, ha⟩ := of_completes hc.2
    obtain ⟨h1, h2, h3, -⟩ := raiseRecord_fields T t .drained t
    refine ((h.raiseRecord t .drained).freed t ?_ (h2.trans hp) (h3.trans ha)).joinOrPark t
    rw [h1, hs]
    decide
  · exact h

/-- The target of a record stays without a target when the record is freed. -/
theorem freed_target (h : Core T) {i t : Index} (hi : (T.entry i).state ≠ .free) (ht : (T.entry i).target = some t) :
    ((T.freed i).entry t).target = none := by
  obtain ⟨-, hnone, hne, -⟩ := h.of_target ht
  rw [freed_entry T i t (ne_zero hi), if_neg hne, if_pos ht]
  exact hnone

theorem becomeFree (h : Core T) (skip : Option Index) (i : Index) (hi : (T.entry i).state ≠ .free)
    (hpins : (T.entry i).pins = 0) (haliases : (T.entry i).aliases = []) : Core (becomeFree skip T i) := by
  have hf := h.freed i hi hpins haliases
  rw [becomeFree_eq]
  refine Core.joinOrPark ?_ i
  split
  · rename_i t ht
    exact hf.testTarget skip t (h.freed_target hi ht)
  · exact hf

theorem testDraining (h : Core T) (skip : Option Index) (i : Index) : Core (testDraining skip T i) := by
  unfold Tables.testDraining
  split_ifs with hc
  · obtain ⟨hs, hp, ha⟩ := of_completes hc.2
    obtain ⟨h1, h2, h3, -⟩ := raiseRecord_fields T i .drained i
    refine (h.raiseRecord i .drained).becomeFree skip i ?_ (h2.trans hp) (h3.trans ha)
    rw [h1, hs]
    decide
  · exact h

end Core

end State

end Sys2Proof.Machine
end

section
/-! SUPPORT. The laws of the free list, the counts, the expiry queue, the writers, the HELD entries and draining, in
every operation over the records that keeps the core laws (R13, R16, R53, R56, R99, R121). -/

namespace Sys2Proof.Machine.State

open Tables

/-- The laws that lean on the core laws, in the midst of a claim: the indices of `S` are FREE but have not joined the
free list or been parked yet, the records of `X` are exempt from the law of draining, and the records that were FREE
in `T0` are as they were. -/
structure Rest (T0 : Tables) (S : List Index) (X : Index → Prop) (T : Tables) : Prop where
  nodup : T.freeList.Nodup
  listed : ∀ j, j ∈ T.freeList ↔ j ≠ 0 ∧ (T.entry j).state = .free ∧
    (T.entry j).reasons = ⟨false, false, false, false⟩ ∧ j ∉ S
  counts : CountLaw T
  expiry : ExpiryLaw T
  writers : WriterLaw T
  held : HeldLaw T
  draining : ∀ j, (T.entry j).state = .draining → X j ∨ 0 < (T.entry j).pins ∨ (T.entry j).aliases ≠ []
  kept : ∀ j, (T0.entry j).state = .free → T.entry j = T0.entry j

/-! ## The count of a domain's records -/

/-- The record counts in domain `d`. -/
def countsIn (T : Tables) (d : DomainId) (i : Index) : Bool :=
  decide ((T.entry i).state ≠ .free ∧ (T.entry i).domain = some d)

theorem countLaw_iff (T : Tables) : CountLaw T ↔ ∀ d, (T.domain d).count = indexCount (countsIn T d) := Iff.rfl

/-- The count where one record changes. -/
theorem indexCount_update {T T' : Tables} (d : DomainId) (i : Index)
    (h : ∀ j, j ≠ i → countsIn T' d j = countsIn T d j) :
    indexCount (countsIn T' d) + (countsIn T d i).toNat = indexCount (countsIn T d) + (countsIn T' d i).toNat :=
  length_filter_update (List.nodup_finRange _) (List.mem_finRange i) _ _ h

theorem indexCount_congr {T T' : Tables} (d : DomainId) (h : ∀ j, countsIn T' d j = countsIn T d j) :
    indexCount (countsIn T' d) = indexCount (countsIn T d) := by
  rw [show countsIn T' d = countsIn T d from funext h]

theorem countDownOf_domain (T : Tables) (o : Option DomainId) (d : DomainId) :
    (T.countDownOf o).domain d =
      if o = some d then { T.domain d with count := (T.domain d).count - 1 } else T.domain d := by
  cases o with
  | none => rfl
  | some c =>
    change (T.setDomain c { T.domain c with count := (T.domain c).count - 1 }).domain d = _
    rw [domain_setDomain]
    by_cases hd : d = c
    · rw [if_pos hd, if_pos (by rw [hd]), hd]
    · rw [if_neg hd, if_neg fun e => hd (Option.some.inj e).symm]

namespace Rest

variable {T0 T T' : Tables} {S : List Index} {X X' : Index → Prop}

/-- A FREE record of the first tables is FREE. -/
theorem free_of_kept (h : Rest T0 S X T) {j : Index} (hj : (T0.entry j).state = .free) :
    (T.entry j).state = .free := by
  rw [h.kept j hj]
  exact hj

/-- A change of pins, writers, alias lists, reasons and holds, in records that are not FREE. -/
theorem of_entries (h : Rest T0 S X T) (hstate : ∀ j, (T'.entry j).state = (T.entry j).state)
    (hdomain : ∀ j, (T'.entry j).domain = (T.entry j).domain)
    (hdeadline : ∀ j, (T'.entry j).deadline = (T.entry j).deadline)
    (hfree : ∀ j, (T.entry j).state = .free → T'.entry j = T.entry j) (hlist : T'.freeList = T.freeList)
    (hcount : ∀ d, (T'.domain d).count = (T.domain d).count) (hqueue : T'.expiryQueue = T.expiryQueue)
    (hwriters : WriterLaw T') (hheld : HeldLaw T')
    (hdrain : ∀ j, (T'.entry j).state = .draining → X' j ∨ 0 < (T'.entry j).pins ∨ (T'.entry j).aliases ≠ []) :
    Rest T0 S X' T' where
  nodup := hlist ▸ h.nodup
  listed j := by
    rw [hlist, h.listed j, hstate]
    constructor
    · rintro ⟨h0, hs, hr, hS⟩
      exact ⟨h0, hs, by rw [hfree j hs]; exact hr, hS⟩
    · rintro ⟨h0, hs, hr, hS⟩
      exact ⟨h0, hs, by rw [← hfree j hs]; exact hr, hS⟩
  counts := (countLaw_iff T').mpr fun d => by
    rw [hcount, (countLaw_iff T).mp h.counts d]
    exact (indexCount_congr d fun j => by unfold countsIn; rw [hstate, hdomain]).symm
  expiry := by
    obtain ⟨h1, h2, h3, h4⟩ := h.expiry
    refine ⟨fun d i => ?_, fun i hi => ?_, hqueue ▸ h3, hqueue ▸ h4⟩
    · rw [hqueue, hdeadline]
      exact h1 d i
    · rw [hstate]
      rw [hdeadline] at hi
      exact h2 i hi
  writers := hwriters
  held := hheld
  draining := hdrain
  kept j hj := (hfree j (h.free_of_kept hj)).trans (h.kept j hj)

/-- The exemption of a record ends where it keeps the law of draining. -/
theorem settled (h : Rest T0 S X T)
    (hX : ∀ j, X j → (T.entry j).state = .draining → X' j ∨ 0 < (T.entry j).pins ∨ (T.entry j).aliases ≠ []) :
    Rest T0 S X' T where
  nodup := h.nodup
  listed := h.listed
  counts := h.counts
  expiry := h.expiry
  writers := h.writers
  held := h.held
  draining j hj := by
    rcases h.draining j hj with hx | hx
    · exact hX j hx hj
    · exact Or.inr hx
  kept := h.kept

theorem exempt (h : Rest T0 S X T) (hX : ∀ j, X j → X' j) : Rest T0 S X' T :=
  h.settled fun j hj _ => Or.inl (hX j hj)

theorem heldLaw_of (h : HeldLaw T) (hhold : ∀ p t y, T'.hold p t = .held y → T.hold p t = .held y)
    (hstate : ∀ j, (T'.entry j).state = (T.entry j).state)
    (hgen : ∀ j, (T'.entry j).generation = (T.entry j).generation) : HeldLaw T' := fun p t y hy => by
  obtain ⟨h1, h2⟩ := h p t y (hhold p t y hy)
  exact ⟨(hgen _).trans h1, fun i hi => by rw [hstate]; exact h2 i hi⟩

theorem of_sameHolds (h : Rest T0 S X T) (hs : SameHolds T T') (hstate : ∀ j, (T'.entry j).state = (T.entry j).state)
    (hgen : ∀ j, (T'.entry j).generation = (T.entry j).generation)
    (hdomain : ∀ j, (T'.entry j).domain = (T.entry j).domain)
    (hdeadline : ∀ j, (T'.entry j).deadline = (T.entry j).deadline)
    (hwriter : ∀ j, (T'.entry j).writer = (T.entry j).writer)
    (hpins : ∀ j, (T'.entry j).pins = (T.entry j).pins) (haliases : ∀ j, (T'.entry j).aliases = (T.entry j).aliases)
    (hfree : ∀ j, (T.entry j).state = .free → T'.entry j = T.entry j) (hlist : T'.freeList = T.freeList)
    (hcount : ∀ d, (T'.domain d).count = (T.domain d).count) (hqueue : T'.expiryQueue = T.expiryQueue) :
    Rest T0 S X T' :=
  h.of_entries hstate hdomain hdeadline hfree hlist hcount hqueue
    (fun i p hi => by
      rw [hwriter] at hi
      obtain ⟨t, y, hy⟩ := h.writers i p hi
      exact ⟨t, y, by rw [hs.hold]; exact hy⟩)
    (heldLaw_of h.held (fun p t y hy => by rw [← hs.hold]; exact hy) hstate hgen)
    (fun j hj => by rw [hpins, haliases]; exact h.draining j (hstate j ▸ hj))

/-! ## The operations -/

theorem ended (h : Rest T0 S X T) (hc : Core T) (p : PortId) (t : Token) (y : HeldHold)
    (hy : T.hold p t = .held y) (next : HoldEntry) (hnext : isHeld next = false)
    (hh : ∀ p' t', T'.hold p' t' = if p' = p ∧ t' = t then next else T.hold p' t')
    (he : ∀ j, T'.entry j = { T.entry j with
      pins := if j = y.index ∨ j = y.resolved then (T.entry j).pins - 1 else (T.entry j).pins
      writer := if j = y.resolved ∧ y.access = .write then none else (T.entry j).writer })
    (hlist : T'.freeList = T.freeList) (hdomains : T'.domains = T.domains)
    (hqueue : T'.expiryQueue = T.expiryQueue) :
    Rest T0 S (fun j => X j ∨ j = y.index ∨ j = y.resolved) T' := by
  have hheld : ∀ p' t' z, T'.hold p' t' = .held z → T.hold p' t' = .held z := by
    intro p' t' z hz
    rw [hh] at hz
    split_ifs at hz
    · rw [hz] at hnext
      cases hnext
    · exact hz
  refine h.of_entries (fun j => by rw [he]) (fun j => by rw [he]) (fun j => by rw [he]) (fun j hj => ?_) hlist
    (fun d => by unfold domain; rw [hdomains]) hqueue ?_
    (heldLaw_of h.held hheld (fun j => by rw [he]) fun j => by rw [he]) fun j hj => ?_
  · rw [he]
    obtain ⟨-, -, -, -, hp, hw, -⟩ := hc.free hj
    rw [hp, hw]
    simp only [Nat.zero_sub, ite_self]
    rw [← hp, ← hw]
  · intro i p' hi
    rw [he] at hi
    dsimp only at hi
    split_ifs at hi with hyi
    obtain ⟨t', z, hz, haz, hrz⟩ := h.writers i p' hi
    refine ⟨t', z, ?_, haz, hrz⟩
    rw [hh]
    split_ifs with hpt
    · obtain ⟨rfl, rfl⟩ := hpt
      rw [hy] at hz
      cases hz
      exact absurd ⟨hrz.symm, haz⟩ hyi
    · exact hz
  · by_cases hjy : j = y.index ∨ j = y.resolved
    · exact Or.inl (Or.inr hjy)
    · rw [he] at hj ⊢
      simp only [hjy, if_false, or_false]
      exact h.draining j hj

theorem raiseRecord (h : Rest T0 S X T) (i : Index) (r : RecReason) : Rest T0 S X (T.raiseRecord i r) := by
  have hs := (sameHolds_closed T).raiseRecord i r (SameHolds.refl T)
  refine h.of_sameHolds hs ?_ ?_ ?_ ?_ ?_ ?_ ?_ ?_ (by rw [raiseRecord_rest]) (fun d => ?_)
    (by rw [raiseRecord_rest])
  iterate 7
    · intro j
      rw [raiseRecord_entries]
      split <;> rfl
  · intro j hj
    rw [raiseRecord_entries, if_neg]
    rintro ⟨rfl, hi⟩
    exact hi hj
  · rw [raiseRecord_rest]
    rfl

theorem leaveQueue (h : Rest T0 S X T) (hc : Core T) (i : Index) : Rest T0 S X (T.leaveQueue i) := by
  have hs := (sameHolds_closed T).leaveQueue i (SameHolds.refl T)
  have hent := T.leaveQueue_entry i
  have hfield : ∀ {α : Type} (f : StatusEntry → α), (∀ e : StatusEntry, f { e with deadline := none } = f e) →
      ∀ j, f ((T.leaveQueue i).entry j) = f (T.entry j) := by
    intro α f hf j
    rw [hent]
    split_ifs
    · exact hf _
    · rfl
  have hstate := hfield StatusEntry.state fun _ => rfl
  have hfree : ∀ j, (T.entry j).state = .free → (T.leaveQueue i).entry j = T.entry j := by
    intro j hj
    rw [hent]
    split_ifs
    · obtain ⟨-, -, -, -, -, -, hd⟩ := hc.free hj
      rw [← hd]
    · rfl
  obtain ⟨h1, h2, h3, h4⟩ := h.expiry
  have hqueue : (T.leaveQueue i).expiryQueue = T.expiryQueue.filter fun x => x.2 != i := by rw [leaveQueue_rest]
  have hlist : (T.leaveQueue i).freeList = T.freeList := by rw [leaveQueue_rest]
  have hsub := List.filter_sublist (p := fun x : Epoch × Index => x.2 != i) (l := T.expiryQueue)
  refine ⟨hlist ▸ h.nodup, fun j => ?_, ?_, ⟨fun d j => ?_, fun j hj => ?_, ?_, ?_⟩, fun j p hj => ?_, ?_,
    fun j hj => ?_, fun j hj => (hfree j (h.free_of_kept hj)).trans (h.kept j hj)⟩
  · rw [hlist, h.listed j, hstate, hfield StatusEntry.reasons fun _ => rfl]
  · refine (countLaw_iff _).mpr fun d => ?_
    have hd : (T.leaveQueue i).domain d = T.domain d := by rw [leaveQueue_rest]; rfl
    rw [hd, (countLaw_iff T).mp h.counts d]
    exact (indexCount_congr d fun j => by
      unfold countsIn
      rw [hstate, hfield StatusEntry.domain fun _ => rfl]).symm
  · rw [hqueue, List.mem_filter, h1, hent]
    split_ifs with hj
    · simp [hj]
    · simp [hj]
  · rw [hstate]
    rw [hent] at hj
    split_ifs at hj
    · exact absurd rfl hj
    · exact h2 j hj
  · rw [hqueue]
    exact h3.sublist (hsub.map _)
  · rw [hqueue]
    exact h4.sublist (hsub.map _)
  · rw [hfield StatusEntry.writer fun _ => rfl] at hj
    obtain ⟨t, y, hy⟩ := h.writers j p hj
    exact ⟨t, y, by rw [hs.hold]; exact hy⟩
  · exact heldLaw_of h.held (fun p t y hy => by rw [← hs.hold]; exact hy) hstate
      (hfield StatusEntry.generation fun _ => rfl)
  · rw [hfield StatusEntry.pins fun _ => rfl, hfield StatusEntry.aliases fun _ => rfl]
    exact h.draining j (hstate j ▸ hj)

theorem mem_insertDue (d : Epoch) (i : Index) (q : List (Epoch × Index)) (x : Epoch × Index) :
    x ∈ insertDue d i q ↔ x = (d, i) ∨ x ∈ q := by
  induction q with
  | nil => simp [insertDue]
  | cons y q ih =>
    obtain ⟨d', j⟩ := y
    unfold insertDue
    split_ifs
    · rw [List.mem_cons, ih, List.mem_cons]
      tauto
    · rw [List.mem_cons]

theorem nodup_insertDue (d : Epoch) (i : Index) (q : List (Epoch × Index)) (hq : (q.map Prod.snd).Nodup)
    (hi : i ∉ q.map Prod.snd) : ((insertDue d i q).map Prod.snd).Nodup := by
  induction q with
  | nil => simp [insertDue]
  | cons y q ih =>
    obtain ⟨d', j⟩ := y
    rw [List.map_cons, List.nodup_cons] at hq
    rw [List.map_cons, List.mem_cons, not_or] at hi
    unfold insertDue
    split_ifs
    · rw [List.map_cons, List.nodup_cons]
      refine ⟨fun hm => ?_, ih hq.2 hi.2⟩
      obtain ⟨x, hx, hxj⟩ := List.mem_map.mp hm
      rcases (mem_insertDue d i q x).mp hx with rfl | hx
      · exact hi.1 hxj
      · exact hq.1 (List.mem_map.mpr ⟨x, hx, hxj⟩)
    · rw [List.map_cons, List.nodup_cons, List.map_cons, List.nodup_cons, List.mem_cons, not_or]
      exact ⟨hi, hq⟩

/-- A LIVE or SUSPENDED record takes a deadline (R83, R100). -/
theorem enterQueue (h : Rest T0 S X T) (hc : Core T) (i : Index) (d : Epoch)
    (hi : (T.entry i).state = .live ∨ (T.entry i).state = .suspended) : Rest T0 S X (T.enterQueue i d) := by
  have hnf : (T.entry i).state ≠ .free := by rcases hi with hi | hi <;> rw [hi] <;> decide
  have h0 := Core.ne_zero hnf
  have hs := (sameHolds_closed T).enterQueue i d (SameHolds.refl T)
  have hent := fun j => T.enterQueue_entry i j d h0
  have hl := h.leaveQueue hc i
  have hlent := T.leaveQueue_entry i
  have hfield : ∀ {α : Type} (f : StatusEntry → α), (∀ (e : StatusEntry) x, f { e with deadline := x } = f e) →
      ∀ j, f ((T.enterQueue i d).entry j) = f (T.entry j) := by
    intro α f hf j
    rw [hent]
    split_ifs
    · exact hf _ _
    · rfl
  have hstate := hfield StatusEntry.state fun _ _ => rfl
  have hfree : ∀ j, (T.entry j).state = .free → (T.enterQueue i d).entry j = T.entry j := by
    intro j hj
    rw [hent, if_neg]
    rintro rfl
    exact hnf hj
  obtain ⟨h1, h2, h3, h4⟩ := hl.expiry
  have hlq : (T.leaveQueue i).expiryQueue = T.expiryQueue.filter fun x => x.2 != i := by rw [leaveQueue_rest]
  rw [hlq] at h1 h3 h4
  have hqueue : (T.enterQueue i d).expiryQueue = insertDue d i (T.expiryQueue.filter fun x => x.2 != i) := by
    rw [enterQueue_rest]
  have hlist : (T.enterQueue i d).freeList = T.freeList := by rw [enterQueue_rest]
  refine ⟨hlist ▸ h.nodup, fun j => ?_, ?_, ⟨fun e j => ?_, fun j hj => ?_, ?_, ?_⟩, fun j p hj => ?_, ?_,
    fun j hj => ?_, fun j hj => (hfree j (h.free_of_kept hj)).trans (h.kept j hj)⟩
  · rw [hlist, h.listed j, hstate, hfield StatusEntry.reasons fun _ _ => rfl]
  · refine (countLaw_iff _).mpr fun d' => ?_
    have hd : (T.enterQueue i d).domain d' = T.domain d' := by rw [enterQueue_rest]; rfl
    rw [hd, (countLaw_iff T).mp h.counts d']
    exact (indexCount_congr d' fun j => by
      unfold countsIn
      rw [hstate, hfield StatusEntry.domain fun _ _ => rfl]).symm
  · rw [hqueue, mem_insertDue, h1, hent, hlent]
    split_ifs with hj
    · simp [hj, eq_comm]
    · simp [hj]
  · rw [hstate]
    by_cases hji : j = i
    · rw [hji]
      exact hi
    · rw [hent, if_neg hji] at hj
      obtain ⟨-, k2, -⟩ := h.expiry
      exact k2 j hj
  · rw [hqueue]
    refine nodup_insertDue d i _ h3 fun hm => ?_
    obtain ⟨x, hx, hxi⟩ := List.mem_map.mp hm
    have := (List.mem_filter.mp hx).2
    simp [hxi] at this
  · rw [hqueue]
    exact insertDue_sorted d i _ h4
  · rw [hfield StatusEntry.writer fun _ _ => rfl] at hj
    obtain ⟨t, y, hy⟩ := h.writers j p hj
    exact ⟨t, y, by rw [hs.hold]; exact hy⟩
  · exact heldLaw_of h.held (fun p t y hy => by rw [← hs.hold]; exact hy) hstate
      (hfield StatusEntry.generation fun _ _ => rfl)
  · rw [hfield StatusEntry.pins fun _ _ => rfl, hfield StatusEntry.aliases fun _ _ => rfl]
    exact h.draining j (hstate j ▸ hj)

/-- A record with no pin, no alias and no deadline is freed; it has not joined the free list yet, and its target has
not been tested yet (R15). -/
theorem freed (h : Rest T0 S X T) (hc : Core T) (i : Index) (hi : (T.entry i).state ≠ .free)
    (hpins : (T.entry i).pins = 0) (haliases : (T.entry i).aliases = []) (hdead : (T.entry i).deadline = none) :
    Rest T0 (i :: S) (fun j => X j ∨ (T.entry i).target = some j) (T.freed i) := by
  have h0 := Core.ne_zero hi
  have hent := fun j => T.freed_entry i j h0
  have hrest := T.freed_rest i
  have hhold : ∀ p t, (T.freed i).hold p t = T.hold p t := fun p t => by rw [hrest]; rfl
  have hlist : (T.freed i).freeList = T.freeList := by rw [hrest]
  have hqueue : (T.freed i).expiryQueue = T.expiryQueue := by rw [hrest]
  have hself : (T.freed i).entry i = { StatusEntry.freeAt ((T.entry i).generation + 1) with
      reasons := (T.entry i).reasons, noticeGen := (T.entry i).noticeGen } := by rw [hent, if_pos rfl]
  have hother : ∀ j, j ≠ i → ∃ l, (T.freed i).entry j = { T.entry j with aliases := l } ∧
      ((T.entry i).target ≠ some j → l = (T.entry j).aliases) := by
    intro j hj
    rw [hent, if_neg hj]
    split_ifs with ht
    · exact ⟨_, rfl, fun hn => absurd ht hn⟩
    · exact ⟨_, rfl, fun _ => rfl⟩
  obtain ⟨h1, h2, h3, h4⟩ := h.expiry
  have hnone : ∀ d, (T.entry i).deadline ≠ some d := fun d hd => by rw [hdead] at hd; cases hd
  have hunheld : ∀ p t y, T.hold p t = .held y → ∀ j, j = y.index ∨ j = y.resolved → j ≠ i := by
    rintro p t y hy j hj rfl
    have := restCount_pos hy hj
    rw [← hc.pins_eq, hpins] at this
    exact absurd this (Nat.lt_irrefl 0)
  refine ⟨hlist ▸ h.nodup, fun j => ?_, (countLaw_iff _).mpr fun d => ?_, ⟨fun d j => ?_, fun j hj => ?_,
    hqueue ▸ h3, hqueue ▸ h4⟩, fun j p hj => ?_, fun p t y hy => ?_, fun j hj => ?_, fun j hj => ?_⟩
  · rw [hlist]
    by_cases hj : j = i
    · subst hj
      refine iff_of_false (fun hm => hi ((h.listed j).mp hm).2.1) fun e => e.2.2.2 List.mem_cons_self
    · obtain ⟨l, hl, -⟩ := hother j hj
      rw [hl, h.listed j, List.mem_cons, not_or]
      simp [hj]
  · have hdom : (T.freed i).domain d = (T.countDownOf (T.entry i).domain).domain d := by rw [hrest]; rfl
    have hupd := indexCount_update (T := T) (T' := T.freed i) d i fun j hj => by
      obtain ⟨l, hl, -⟩ := hother j hj
      unfold countsIn
      rw [hl]
    have hf' : countsIn (T.freed i) d i = false := by
      unfold countsIn
      rw [hself]
      simp [StatusEntry.freeAt]
    rw [hf', Bool.toNat_false, Nat.add_zero] at hupd
    rw [hdom, countDownOf_domain]
    have hcnt := (countLaw_iff T).mp h.counts d
    split_ifs with hd
    · have hf : countsIn T d i = true := by simp [countsIn, hi, hd]
      rw [hf, Bool.toNat_true] at hupd
      change (T.domain d).count - 1 = _
      omega
    · have hf : countsIn T d i = false := by simp [countsIn, hd]
      rw [hf, Bool.toNat_false] at hupd
      omega
  · rw [hqueue, h1]
    by_cases hj : j = i
    · subst hj
      rw [hself]
      exact iff_of_false (hnone d) fun e => (nomatch e)
    · obtain ⟨l, hl, -⟩ := hother j hj
      rw [hl]
  · by_cases hji : j = i
    · subst hji
      rw [hself] at hj
      exact absurd rfl hj
    · obtain ⟨l, hl, -⟩ := hother j hji
      rw [hl] at hj ⊢
      exact h2 j hj
  · by_cases hji : j = i
    · subst hji
      rw [hself] at hj
      cases hj
    · obtain ⟨l, hl, -⟩ := hother j hji
      rw [hl] at hj
      obtain ⟨t, y, hy⟩ := h.writers j p hj
      exact ⟨t, y, by rw [hhold]; exact hy⟩
  · rw [hhold] at hy
    obtain ⟨k1, k2⟩ := h.held p t y hy
    have hne := hunheld p t y hy
    refine ⟨?_, fun j hj => ?_⟩
    · obtain ⟨l, hl, -⟩ := hother y.index (hne _ (Or.inl rfl))
      rw [hl]
      exact k1
    · obtain ⟨l, hl, -⟩ := hother j (hne j hj)
      rw [hl]
      exact k2 j hj
  · by_cases hji : j = i
    · subst hji
      rw [hself] at hj
      cases hj
    · obtain ⟨l, hl, hl'⟩ := hother j hji
      by_cases ht : (T.entry i).target = some j
      · exact Or.inl (Or.inr ht)
      · rw [hl] at hj ⊢
        rw [hl' ht]
        exact (h.draining j hj).imp_left Or.inl
  · have hjf := h.free_of_kept hj
    have hji : j ≠ i := by
      rintro rfl
      exact hi hjf
    have ht : (T.entry i).target ≠ some j := fun ht => (hc.of_target ht).2.2.2 hjf
    rw [hent, if_neg hji, if_neg ht]
    exact h.kept j hj

/-- A FREE index that had not joined the free list joins it, or is parked (R15, R17). -/
theorem joinOrPark (i : Index) (h : Rest T0 (i :: S) X T) (hS : i ∉ S) (hi : (T.entry i).state = .free)
    (h0 : i ≠ 0) : Rest T0 S X (T.joinOrPark i) := by
  have hent := T.joinOrPark_entry i
  have hrest := T.joinOrPark_rest i
  have hhold : ∀ p t, (T.joinOrPark i).hold p t = T.hold p t := fun p t => by rw [hrest]; rfl
  have hnot : i ∉ T.freeList := fun hm => ((h.listed i).mp hm).2.2.2 List.mem_cons_self
  have hlist : (T.joinOrPark i).freeList = if (T.entry i).reasons.isEmpty then T.freeList ++ [i] else T.freeList := by
    unfold Tables.joinOrPark
    split_ifs <;> rfl
  refine ⟨?_, fun j => ?_, ?_, ?_, fun j p hj => ?_, ?_, fun j hj => ?_, fun j hj => ?_⟩
  · rw [hlist]
    split_ifs
    · exact List.nodup_append.mpr ⟨h.nodup, List.nodup_singleton i, fun a ha b hb => by
        rw [List.mem_singleton.mp hb]
        rintro rfl
        exact hnot ha⟩
    · exact h.nodup
  · rw [hent, hlist]
    by_cases hj : j = i
    · subst hj
      split_ifs with hr
      · exact iff_of_true (List.mem_append_right _ (List.mem_singleton.mpr rfl))
          ⟨h0, hi, (isEmpty_iff _).mp hr, hS⟩
      · exact iff_of_false hnot fun e => hr ((isEmpty_iff _).mpr e.2.2.1)
    · have hl := h.listed j
      rw [List.mem_cons, not_or] at hl
      split_ifs
      · rw [List.mem_append, List.mem_singleton, hl]
        simp [hj]
      · rw [hl]
        simp [hj]
  · refine (countLaw_iff _).mpr fun d => ?_
    have hd : (T.joinOrPark i).domain d = T.domain d := by rw [hrest]; rfl
    rw [hd, (countLaw_iff T).mp h.counts d]
    exact (indexCount_congr d fun j => by unfold countsIn; rw [hent]).symm
  · obtain ⟨h1, h2, h3, h4⟩ := h.expiry
    have hqueue : (T.joinOrPark i).expiryQueue = T.expiryQueue := by rw [hrest]
    refine ⟨fun d j => by rw [hqueue, hent]; exact h1 d j, fun j hj => ?_, hqueue ▸ h3, hqueue ▸ h4⟩
    rw [hent] at hj ⊢
    exact h2 j hj
  · rw [hent] at hj
    obtain ⟨t, y, hy⟩ := h.writers j p hj
    exact ⟨t, y, by rw [hhold]; exact hy⟩
  · exact heldLaw_of h.held (fun p t y hy => by rw [← hhold]; exact hy) (fun j => by rw [hent]) fun j => by rw [hent]
  · rw [hent] at hj ⊢
    exact h.draining j hj
  · rw [hent]
    exact h.kept j hj

/-- A record changes its state, to none of FREE (R11, R14, R78, R90). -/
theorem changed (h : Rest T0 S X T) (i : Index) (x : RecState) (hi : (T.entry i).state ≠ .free) (hx : x ≠ .free)
    (hdead : (T.entry i).deadline ≠ none → x = .live ∨ x = .suspended)
    (hheld : x = .live ∨ x = .suspended ∨ x = .draining ∨ restCount T i = 0)
    (hdrain : x = .draining → X i ∨ 0 < (T.entry i).pins ∨ (T.entry i).aliases ≠ []) :
    Rest T0 S X (T.modEntry i fun e => { e with state := x }) := by
  have h0 := Core.ne_zero hi
  have hent : ∀ j, (T.modEntry i fun e => { e with state := x }).entry j =
      if j = i then { T.entry j with state := x } else T.entry j := fun j => by
    rw [entry_modEntry]
    simp [h0]
  have hrest := T.modEntry_rest i fun e => { e with state := x }
  generalize hT : (T.modEntry i fun e => { e with state := x }) = T' at hent hrest ⊢
  have hhold : ∀ p t, T'.hold p t = T.hold p t := fun p t => by rw [hrest]; rfl
  have hlist : T'.freeList = T.freeList := by rw [hrest]
  have hqueue : T'.expiryQueue = T.expiryQueue := by rw [hrest]
  have hfield : ∀ {α : Type} (f : StatusEntry → α), (∀ (e : StatusEntry), f { e with state := x } = f e) →
      ∀ j, f (T'.entry j) = f (T.entry j) := by
    intro α f hf j
    rw [hent]
    split_ifs
    · exact hf _
    · rfl
  obtain ⟨h1, h2, h3, h4⟩ := h.expiry
  refine ⟨hlist ▸ h.nodup, fun j => ?_, (countLaw_iff _).mpr fun d => ?_, ⟨fun d j => ?_, fun j hj => ?_,
    hqueue ▸ h3, hqueue ▸ h4⟩, fun j p hj => ?_, fun p t y hy => ?_, fun j hj => ?_, fun j hj => ?_⟩
  · rw [hlist, h.listed j, hfield StatusEntry.reasons fun _ => rfl, hent]
    split_ifs with hj
    · subst hj
      simp [hi, hx]
    · rfl
  · have hd : T'.domain d = T.domain d := by rw [hrest]; rfl
    rw [hd, (countLaw_iff T).mp h.counts d]
    refine (indexCount_congr d fun j => ?_).symm
    unfold countsIn
    rw [hfield StatusEntry.domain fun _ => rfl, hent]
    split_ifs with hj
    · subst hj
      simp [hi, hx]
    · rfl
  · rw [hqueue, h1, hfield StatusEntry.deadline fun _ => rfl]
  · rw [hfield StatusEntry.deadline fun _ => rfl] at hj
    rw [hent]
    split_ifs with hji
    · exact hdead (hji ▸ hj)
    · exact h2 j hj
  · rw [hfield StatusEntry.writer fun _ => rfl] at hj
    obtain ⟨t, y, hy⟩ := h.writers j p hj
    exact ⟨t, y, by rw [hhold]; exact hy⟩
  · rw [hhold] at hy
    obtain ⟨k1, k2⟩ := h.held p t y hy
    rw [hfield StatusEntry.generation fun _ => rfl]
    refine ⟨k1, fun j hj => ?_⟩
    rw [hent]
    split_ifs with hji
    · have hpos := restCount_pos hy hj
      rw [hji] at hpos
      rcases hheld with hx | hx | hx | hx
      · exact Or.inl hx
      · exact Or.inr (Or.inl hx)
      · exact Or.inr (Or.inr hx)
      · rw [hx] at hpos
        exact absurd hpos (Nat.lt_irrefl 0)
    · exact k2 j hj
  · rw [hfield StatusEntry.pins fun _ => rfl, hfield StatusEntry.aliases fun _ => rfl]
    rw [hent] at hj
    split_ifs at hj with hji
    · rw [hji]
      exact hdrain hj
    · exact h.draining j hj
  · have hji : j ≠ i := by
      rintro rfl
      exact hi (h.free_of_kept hj)
    rw [hent, if_neg hji]
    exact h.kept j hj

end Rest

end Sys2Proof.Machine.State
end

section
/-! SUPPORT. The holds that a claim breaks, and the frames that it places for them (R50, R51, R63, R168). -/

namespace Sys2Proof.Machine

open Tables

namespace State

/-- The tokens of a port among some entries. -/
def tokensAt (xs : List (PortId × Token)) (p : PortId) : List Token :=
  (xs.filter fun x => decide (x.1 = p)).map Prod.snd

/-- From `T` to `T'` the HELD entries of `l` are broken with one reason, in its order. -/
structure Breaks (reason : BreakReason) (T T' : Tables) (l : PortId → List Token) : Prop where
  nodup : ∀ p, (l p).Nodup
  held : ∀ p, ∀ t ∈ l p, isHeld (T.hold p t) = true
  hold : ∀ p t, T'.hold p t = if t ∈ l p then .broken reason (sendsBroken (T.port p).state) else T.hold p t
  queue : ∀ p, T'.queueOf p = T.queueOf p ++
    if sendsBroken (T.port p).state = true then (l p).map (fun t => .broken t reason) else []
  ports : T'.ports = T.ports
  fillOrder : T.fillOrder.Nodup → T'.fillOrder = T.fillOrder.filter fun x => decide (x.2 ∉ l x.1)

theorem sendsBroken_eq (x : PortState) : sendsBroken x = decide (x = .active ∨ x = .fenced) := by
  cases x <;> rfl

theorem breaksHolds_iff (reason : BreakReason) (T T' : Tables) (ks : PortId → List Token) :
    BreaksHolds reason T T' ks ↔ ∀ p,
      (∀ t, T'.hold p t = if t ∈ ks p then .broken reason (sendsBroken (T.port p).state) else T.hold p t) ∧
      T'.queueOf p = T.queueOf p ++
        if sendsBroken (T.port p).state = true then (ks p).map (fun t => .broken t reason) else [] := by
  unfold BreaksHolds
  simp only [sendsBroken_eq, decide_eq_true_eq]

namespace Breaks

variable {reason : BreakReason} {T T1 T2 : Tables} {l l1 l2 : PortId → List Token}

/-- A claim that breaks no hold. -/
theorem of_sameHolds (h : SameHolds T T1) : Breaks reason T T1 (fun _ => []) where
  nodup _ := List.nodup_nil
  held _ _ ht := absurd ht List.not_mem_nil
  hold p t := by rw [if_neg List.not_mem_nil, h.hold]
  queue p := by rw [h.queueOf]; simp
  ports := h.ports
  fillOrder _ := by
    rw [h.fillOrder]
    simp

theorem trans (h1 : Breaks reason T T1 l1) (h2 : Breaks reason T1 T2 l2) :
    Breaks reason T T2 (fun p => l1 p ++ l2 p) where
  nodup p := by
    refine List.nodup_append.mpr ⟨h1.nodup p, h2.nodup p, ?_⟩
    rintro t ht u hu rfl
    have := h2.held p t hu
    rw [h1.hold, if_pos ht] at this
    cases this
  held p t ht := by
    rcases List.mem_append.mp ht with ht | ht
    · exact h1.held p t ht
    · have := h2.held p t ht
      rw [h1.hold] at this
      split_ifs at this with h
      · cases this
      · exact this
  hold p t := by
    have hport : T1.port p = T.port p := by unfold port; rw [h1.ports]
    rw [h2.hold, h1.hold, hport]
    by_cases ht2 : t ∈ l2 p <;> by_cases ht1 : t ∈ l1 p <;> simp [ht1, ht2]
  queue p := by
    have hport : T1.port p = T.port p := by unfold port; rw [h1.ports]
    rw [h2.queue, h1.queue, hport]
    split_ifs <;> simp
  ports := h2.ports.trans h1.ports
  fillOrder hn := by
    have h1' := h1.fillOrder hn
    rw [h2.fillOrder (h1' ▸ hn.filter _), h1', List.filter_filter]
    refine List.filter_congr fun x _ => ?_
    simp [Bool.and_comm]

/-- What a break leaves of the tables breaks no hold. -/
theorem then_sameHolds (h : Breaks reason T T1 l) (hs : SameHolds T1 T2) : Breaks reason T T2 l := by
  have := h.trans (of_sameHolds hs)
  simpa using this

theorem congr (h : Breaks reason T T1 l) {l' : PortId → List Token} (hl : ∀ p, l p = l' p) :
    Breaks reason T T1 l' := (funext hl : l = l') ▸ h

theorem breakUnpin (p : PortId) (t : Token) (h : HeldHold) (hh : T.hold p t = .held h) :
    Breaks reason T (T.breakUnpin reason p t h) (fun p' => if p' = p then [t] else []) where
  nodup p' := by split_ifs <;> simp
  held p' t' ht := by
    split_ifs at ht with hp
    · rw [List.mem_singleton.mp ht, hp, hh]
      rfl
    · exact absurd ht List.not_mem_nil
  hold p' t' := by
    rw [breakUnpin_hold]
    by_cases hp : p' = p
    · subst hp
      simp
    · simp [hp]
  queue p' := by
    rw [breakUnpin_queueOf]
    by_cases hp : p' = p
    · subst hp
      split_ifs <;> simp_all
    · simp [hp]
  ports := by rw [breakUnpin_rest]
  fillOrder hn := by
    rw [breakUnpin_fillOrder, hn.erase_eq_filter]
    refine List.filter_congr fun x _ => ?_
    obtain ⟨p', t'⟩ := x
    rw [Bool.eq_iff_iff, bne_iff_ne]
    by_cases hp : p' = p <;> simp [hp]

theorem breakHold (damaged : Option Index) (x : PortId × Token) (h : HeldHold) (hh : T.hold x.1 x.2 = .held h) :
    Breaks reason T (breakHold reason damaged T x) (fun p => if p = x.1 then [x.2] else []) := by
  rw [breakHold_held reason damaged T x h hh]
  refine (Breaks.breakUnpin x.1 x.2 h hh).then_sameHolds ?_
  exact (sameHolds_closed _).testRecords damaged h ((sameHolds_closed _).raiseBreak reason damaged _ (SameHolds.refl _))

/-- Several HELD entries are broken in one claim, in the order given (R63). -/
theorem breakAll (damaged : Option Index) (xs : List (PortId × Token)) (hn : xs.Nodup)
    (hh : ∀ x ∈ xs, isHeld (T.hold x.1 x.2) = true) :
    Breaks reason T (T.breakAll reason damaged xs) (tokensAt xs) := by
  induction xs generalizing T with
  | nil => exact of_sameHolds (SameHolds.refl T)
  | cons x xs ih =>
    obtain ⟨hx, hn⟩ := List.nodup_cons.mp hn
    obtain ⟨y, hy⟩ : ∃ y, T.hold x.1 x.2 = .held y := by
      have := hh x List.mem_cons_self
      cases he : T.hold x.1 x.2 with
      | held y => exact ⟨y, rfl⟩
      | _ => rw [he] at this; cases this
    have h1 := Breaks.breakHold (reason := reason) damaged x y hy
    have h2 := ih (T := Tables.breakHold reason damaged T x) hn fun z hz => by
      rw [h1.hold, if_neg]
      · exact hh z (List.mem_cons_of_mem _ hz)
      · intro hm
        split_ifs at hm with hp
        · exact hx (Prod.ext hp (List.mem_singleton.mp hm) ▸ hz)
        · exact absurd hm List.not_mem_nil
    refine (h1.trans h2).congr fun p => ?_
    unfold tokensAt
    by_cases hp : x.1 = p
    · simp [hp]
    · simp [hp, Ne.symm hp]

end Breaks

/-! ## The entries that a test finds -/

/-- The tokens of port `p` whose entries are HELD and satisfy a test, ascending. -/
def heldTokensWhere (T : Tables) (f : PortId → Token → HeldHold → Bool) (p : PortId) : List Token :=
  allTokens.filter fun t => match T.hold p t with
    | .held h => f p t h
    | .empty | .reserved | .broken _ _ => false

theorem mem_heldTokensWhere (T : Tables) (f : PortId → Token → HeldHold → Bool) (p : PortId) (t : Token) :
    t ∈ heldTokensWhere T f p ↔ ∃ h, T.hold p t = .held h ∧ f p t h = true := by
  have hall : t ∈ allTokens := by
    revert t
    decide
  unfold heldTokensWhere
  rw [List.mem_filter, and_iff_right hall]
  cases T.hold p t <;> simp

theorem tokensAt_heldWhere (T : Tables) (f : PortId → Token → HeldHold → Bool) (p : PortId) :
    tokensAt (T.heldWhere f) p = heldTokensWhere T f p := by
  have hat : ∀ p : PortId, allEntries.filter (fun x => decide (x.1 = p)) = allTokens.map fun t => (p, t) := by decide
  unfold tokensAt heldWhere heldTokensWhere
  rw [List.filter_filter]
  simp only [Bool.and_comm (decide _)]
  rw [← List.filter_filter, hat, List.filter_map, List.map_map]
  exact List.map_id' _

theorem nodup_heldWhere (T : Tables) (f : PortId → Token → HeldHold → Bool) : (T.heldWhere f).Nodup :=
  nodup_allEntries.filter _

/-- The entries that a test finds are broken in one claim (R63). -/
theorem Breaks.heldWhere {reason : BreakReason} {T : Tables} (damaged : Option Index)
    (f : PortId → Token → HeldHold → Bool) :
    Breaks reason T (T.breakAll reason damaged (T.heldWhere f)) (heldTokensWhere T f) :=
  (Breaks.breakAll damaged _ (nodup_heldWhere T f) fun x hx => by
    obtain ⟨h, hh, -⟩ := (mem_heldWhere T f x).mp hx
    rw [hh]
    rfl).congr (tokensAt_heldWhere T f)

theorem Breaks.breaksHolds {reason : BreakReason} {T T' : Tables} {l : PortId → List Token}
    (h : Breaks reason T T' l) : BreaksHolds reason T T' l :=
  (breaksHolds_iff ..).mpr fun p => ⟨h.hold p, h.queue p⟩

theorem restingTokens_eq (T : Tables) (i : Index) (p : PortId) :
    restingTokens T i p = heldTokensWhere T (fun _ _ h => restsOn i h) p := by
  unfold restingTokens heldTokensWhere
  refine List.filter_congr fun t _ => ?_
  cases T.hold p t with
  | held h => simp [restsOn, beq_eq_decide, Bool.decide_or]
  | _ => rfl

/-! ## The order of a claim's frames (R168) -/

/-- BROKEN frames put in the order of their tokens. -/
theorem inTokenOrder_broken (reason : BreakReason) {l : List Token} (hl : l.Nodup) :
    inTokenOrder (l.map fun t => .broken t reason) =
      (allTokens.filter fun t => decide (t ∈ l)).map fun t => .broken t reason := by
  have hanswer : (l.map fun t => OutFrame.broken t reason).filter isAnswer = [] := by
    rw [List.filter_eq_nil_iff]
    intro f hf
    obtain ⟨t, -, rfl⟩ := List.mem_map.mp hf
    exact Bool.false_ne_true
  have hone : ∀ t, (l.map fun u => OutFrame.broken u reason).filter (brokenFrameOf t) =
      if t ∈ l then [.broken t reason] else [] := by
    intro t
    have hfun : brokenFrameOf t ∘ (fun u => OutFrame.broken u reason) = fun u => decide (u = t) := rfl
    rw [List.filter_map, hfun, List.filter_eq]
    split_ifs with ht
    · rw [hl.count, if_pos ht]
      rfl
    · rw [List.count_eq_zero_of_not_mem ht]
      rfl
  unfold inTokenOrder
  rw [hanswer, List.nil_append]
  simp only [hone]
  induction allTokens with
  | nil => rfl
  | cons t ts ih =>
    rw [List.flatMap_cons, ih, List.filter_cons]
    by_cases ht : t ∈ l <;> simp [ht]

/-- With its frames put in token order, a claim has broken the holds as a single break would. -/
theorem Breaks.ordered {reason : BreakReason} {T T' : Tables} {l : PortId → List Token} (h : Breaks reason T T' l) :
    BreaksHolds reason T (orderFrames T T') (fun p => allTokens.filter fun t => decide (t ∈ l p)) := by
  have hall : ∀ t : Token, t ∈ allTokens := by decide
  refine (breaksHolds_iff ..).mpr fun p => ⟨fun t => ?_, ?_⟩
  · rw [orderFrames_hold, h.hold]
    simp [hall]
  · rw [queueOf_orderFrames, h.queue]
    unfold orderBehind
    rw [List.take_left, List.drop_left]
    split_ifs
    · rw [inTokenOrder_broken reason (h.nodup p)]
    · rfl

end State

end Sys2Proof.Machine
end

section
/-! SUPPORT. What breaks, retirements and damage claims leave of the records that they are not about. -/

namespace Sys2Proof.Machine

open Tables

namespace State

/-- Every reason of `r` is a reason of `r'`. -/
structure ReasonsIn (r r' : RecordReasons) : Prop where
  expired : r.expired = true → r'.expired = true
  drained : r.drained = true → r'.drained = true
  pinBroken : r.pinBroken = true → r'.pinBroken = true
  damaged : r.damaged = true → r'.damaged = true

theorem ReasonsIn.refl (r : RecordReasons) : ReasonsIn r r := ⟨id, id, id, id⟩

theorem ReasonsIn.trans {r r' r'' : RecordReasons} (h : ReasonsIn r r') (h' : ReasonsIn r' r'') : ReasonsIn r r'' :=
  ⟨h'.expired ∘ h.expired, h'.drained ∘ h.drained, h'.pinBroken ∘ h.pinBroken, h'.damaged ∘ h.damaged⟩

theorem ReasonsIn.add (r : RecordReasons) (x : RecReason) : ReasonsIn r (r.add x) := by
  cases x <;> exact ⟨fun h => by simp [RecordReasons.add, h], fun h => by simp [RecordReasons.add, h],
    fun h => by simp [RecordReasons.add, h], fun h => by simp [RecordReasons.add, h]⟩

/-- The fields that tell a record's life stay. -/
def SameLife (e e' : StatusEntry) : Prop :=
  e'.state = e.state ∧ e'.generation = e.generation ∧ e'.domain = e.domain ∧ e'.kind = e.kind ∧
    e'.target = e.target ∧ e'.deadline = e.deadline

/-- What a claim leaves of a record: its life stays where the claim is not about it, unless it was DRAINING and has
completed; what has ended stays ended; aliases and writers only go, and reasons only come; and what is FREE has no
pin where that was so before. -/
structure EntrySteady (own : Prop) (e e' : StatusEntry) : Prop where
  life : ¬ own → SameLife e e' ∨ (e.state = .draining ∧ e'.state = .free ∧ e'.target = none)
  ended : e.state = .free ∨ e.state = .draining → e'.state = .free ∨ e'.state = .draining
  aliases : e'.aliases.Sublist e.aliases
  reasons : ReasonsIn e.reasons e'.reasons
  writer : e'.writer = e.writer ∨ e'.writer = none
  unpinned : (e.state = .free → e.pins = 0) → e'.state = .free → e'.pins = 0

namespace EntrySteady

variable {own : Prop} {e e' e'' : StatusEntry}

theorem of_sameLife (h : SameLife e e') (ha : e'.aliases.Sublist e.aliases) (hr : ReasonsIn e.reasons e'.reasons)
    (hw : e'.writer = e.writer ∨ e'.writer = none) (hp : e.pins = 0 → e'.pins = 0) : EntrySteady own e e' :=
  ⟨fun _ => Or.inl h, fun hs => h.1 ▸ hs, ha, hr, hw, fun h0 hs => hp (h0 (h.1 ▸ hs))⟩

theorem refl (e : StatusEntry) : EntrySteady own e e :=
  of_sameLife ⟨rfl, rfl, rfl, rfl, rfl, rfl⟩ (List.Sublist.refl _) (ReasonsIn.refl _) (Or.inl rfl) id

theorem trans (h : EntrySteady own e e') (h' : EntrySteady own e' e'') : EntrySteady own e e'' where
  life hown := by
    rcases h.life hown with ⟨a1, a2, a3, a4, a5, a6⟩ | ⟨hs, hf, ht⟩
    · rcases h'.life hown with ⟨b1, b2, b3, b4, b5, b6⟩ | ⟨hs, hf, ht⟩
      · exact Or.inl ⟨b1.trans a1, b2.trans a2, b3.trans a3, b4.trans a4, b5.trans a5, b6.trans a6⟩
      · exact Or.inr ⟨a1 ▸ hs, hf, ht⟩
    · rcases h'.life hown with ⟨b1, -, -, -, b5, -⟩ | ⟨hs', -, -⟩
      · exact Or.inr ⟨hs, b1.trans hf, b5.trans ht⟩
      · rw [hf] at hs'
        cases hs'
  ended := h'.ended ∘ h.ended
  aliases := h'.aliases.trans h.aliases
  reasons := h.reasons.trans h'.reasons
  writer := by
    rcases h'.writer with hw | hw
    · rw [hw]
      exact h.writer
    · exact Or.inr hw
  unpinned := h'.unpinned ∘ h.unpinned

/-- The end of a hold, on each record it rests on. -/
theorem ended_hold (e : StatusEntry) (c c' : Prop) [Decidable c] [Decidable c'] :
    EntrySteady own e { e with
      pins := if c then e.pins - 1 else e.pins
      writer := if c' then none else e.writer } := by
  refine of_sameLife ⟨rfl, rfl, rfl, rfl, rfl, rfl⟩ (List.Sublist.refl _) (ReasonsIn.refl _) ?_ fun hp => ?_
  · by_cases h : c'
    · exact Or.inr (if_pos h)
    · exact Or.inl (if_neg h)
  · show (if c then e.pins - 1 else e.pins) = 0
    split <;> omega

theorem weaken {own' : Prop} (h : EntrySteady own e e') (ho : own → own') : EntrySteady own' e e' :=
  ⟨fun hn => h.life fun h1 => hn (ho h1), h.ended, h.aliases, h.reasons, h.writer, h.unpinned⟩

end EntrySteady

/-- A claim that is about the records of `A` leaves the others steady. -/
def Steady (A : Index → Prop) (T T' : Tables) : Prop := ∀ j, EntrySteady (A j) (T.entry j) (T'.entry j)

namespace Steady

variable {A : Index → Prop} {T T' T'' : Tables}

theorem refl (T : Tables) : Steady A T T := fun _ => .refl _

theorem trans (h : Steady A T T') (h' : Steady A T' T'') : Steady A T T'' := fun j => (h j).trans (h' j)

theorem weaken {A' : Index → Prop} (h : Steady A T T') (ha : ∀ j, A j → A' j) : Steady A' T T' :=
  fun j => (h j).weaken (ha j)

theorem of_entry_eq (h : ∀ j, T'.entry j = T.entry j) : Steady A T T' := fun j => by
  rw [h]
  exact .refl _

/-- The life of a record that the claim is not about and that is not DRAINING. -/
theorem sameLife (h : Steady A T T') {j : Index} (hA : ¬ A j) (hj : (T.entry j).state ≠ .draining) :
    SameLife (T.entry j) (T'.entry j) := ((h j).life hA).resolve_right fun hd => hj hd.1

theorem unpin (p : PortId) (t : Token) (h : HeldHold) (next : HoldEntry) : Steady A T (T.unpin p t h next) := fun j => by
  rw [unpin_entry]
  exact .ended_hold _ _ _

theorem breakUnpin (reason : BreakReason) (p : PortId) (t : Token) (h : HeldHold) :
    Steady A T (T.breakUnpin reason p t h) := fun j => by
  rw [breakUnpin_entry]
  exact .ended_hold _ _ _

theorem raiseRecord (i : Index) (r : RecReason) : Steady A T (T.raiseRecord i r) := fun j => by
  rw [raiseRecord_entries]
  by_cases hj : j = i ∧ (T.entry i).state ≠ .free
  · rw [if_pos hj]
    exact .of_sameLife ⟨rfl, rfl, rfl, rfl, rfl, rfl⟩ (List.Sublist.refl _) (ReasonsIn.add _ r) (Or.inl rfl) id
  · rw [if_neg hj]
    exact .refl _

theorem leaveTarget (i t : Index) : Steady A T (T.leaveTarget i t) := fun j => by
  rw [leaveTarget_entry]
  split_ifs
  · exact .of_sameLife ⟨rfl, rfl, rfl, rfl, rfl, rfl⟩ List.erase_sublist (ReasonsIn.refl _) (Or.inl rfl) id
  · exact .refl _

/-- A record that the claim is about, or that completes, is freed. -/
theorem makeFree {i : Index} (hi : A i ∨ (T.entry i).state = .draining) : Steady A T (T.makeFree i) := fun j => by
  by_cases h0 : i = 0
  · have : (T.makeFree i).entry j = T.entry j := by
      unfold Tables.makeFree
      dsimp only
      rw [entry_setEntry, if_neg fun e => e.2 h0, countDownOf_entry]
    rw [this]
    exact .refl _
  · rw [makeFree_entries T i j h0]
    split_ifs with hj
    · rw [hj]
      exact ⟨fun hn => Or.inr ⟨hi.resolve_left hn, rfl, rfl⟩, fun _ => Or.inl rfl, List.nil_sublist _, ReasonsIn.refl _,
        Or.inr rfl, fun _ _ => rfl⟩
    · exact .refl _

theorem joinOrPark (i : Index) : Steady A T (T.joinOrPark i) := of_entry_eq (T.joinOrPark_entry i)

theorem testTarget (skip : Option Index) (t : Index) : Steady A T (testTarget skip T t) := by
  unfold Tables.testTarget
  split_ifs with hc
  · have hs := (Core.of_completes hc.2).1
    obtain ⟨h1, -⟩ := Core.raiseRecord_fields T t .drained t
    exact ((raiseRecord t .drained).trans (makeFree (Or.inr (h1.trans hs)))).trans (joinOrPark t)
  · exact refl T

theorem becomeFree (skip : Option Index) {i : Index} (hi : A i ∨ (T.entry i).state = .draining) :
    Steady A T (becomeFree skip T i) := by
  unfold Tables.becomeFree
  dsimp only
  refine Steady.trans ?_ (joinOrPark i)
  split
  · rename_i t _
    exact ((makeFree hi).trans (leaveTarget i t)).trans (testTarget skip t)
  · exact makeFree hi

theorem testDraining (skip : Option Index) (i : Index) : Steady A T (testDraining skip T i) := by
  unfold Tables.testDraining
  split_ifs with hc
  · have hs := (Core.of_completes hc.2).1
    obtain ⟨h1, -⟩ := Core.raiseRecord_fields T i .drained i
    exact (raiseRecord i .drained).trans (becomeFree skip (Or.inr (h1.trans hs)))
  · exact refl T

theorem testRecords (skip : Option Index) (y : HeldHold) : Steady A T (testRecords skip T y) := by
  unfold Tables.testRecords
  dsimp only
  split_ifs
  · exact testDraining skip _
  · exact (testDraining skip _).trans (testDraining skip _)

theorem raiseBreak (reason : BreakReason) (damaged : Option Index) (i : Index) :
    Steady A T (raiseBreak reason damaged T i) := by
  unfold Tables.raiseBreak
  split_ifs
  · exact raiseRecord i _
  · exact refl T

theorem breakHold (reason : BreakReason) (damaged : Option Index) (x : PortId × Token) :
    Steady A T (breakHold reason damaged T x) := by
  by_cases hx : ∃ y, T.hold x.1 x.2 = .held y
  · obtain ⟨y, hy⟩ := hx
    rw [breakHold_held reason damaged T x y hy]
    exact ((breakUnpin reason x.1 x.2 y).trans (raiseBreak reason damaged _)).trans (testRecords damaged y)
  · rw [breakHold_not_held T reason damaged x fun y hy => hx ⟨y, hy⟩]
    exact refl T

theorem breakAll (reason : BreakReason) (damaged : Option Index) (xs : List (PortId × Token)) :
    Steady A T (T.breakAll reason damaged xs) := by
  unfold Tables.breakAll
  induction xs generalizing T with
  | nil => exact refl T
  | cons x xs ih => exact (breakHold reason damaged x).trans ih

theorem leaveQueue {i : Index} (hi : A i) : Steady A T (T.leaveQueue i) := fun j => by
  rw [leaveQueue_entry]
  split_ifs with hj
  · exact ⟨fun hn => absurd (hj ▸ hi) hn, id, List.Sublist.refl _, ReasonsIn.refl _, Or.inl rfl, id⟩
  · exact .refl _

/-- A record changes its state in a claim that is about it. -/
theorem changed {i : Index} (hi : A i) {x : RecState} (hfree : x ≠ .free)
    (hx : (T.entry i).state = .free ∨ (T.entry i).state = .draining → x = .free ∨ x = .draining) :
    Steady A T (T.modEntry i fun e => { e with state := x }) := fun j => by
  rw [entry_modEntry]
  split_ifs with hj
  · exact ⟨fun hn => absurd (hj.1 ▸ hi) hn, fun hs => hx (hj.1 ▸ hs), List.Sublist.refl _, ReasonsIn.refl _, Or.inl rfl,
      fun _ hs => absurd hs hfree⟩
  · exact .refl _

theorem finishRetire {i : Index} (hi : A i) : Steady A T (T.finishRetire i) := by
  unfold Tables.finishRetire
  dsimp only
  refine (leaveQueue hi).trans ?_
  split_ifs
  · exact becomeFree none (Or.inl hi)
  · exact changed hi (by decide) fun _ => Or.inr rfl

theorem retireSelf (brk : Bool) {i : Index} (hi : A i) : Steady A T (T.retireSelf brk i) := by
  rw [retireSelf_eq]
  refine Steady.trans ?_ (finishRetire hi)
  split
  · exact breakAll _ _ _
  · exact refl T

theorem cascadeVisit (brk : Bool) {a : Index} (ha : A a) : Steady A T (cascadeVisit brk T a) := by
  unfold Tables.cascadeVisit
  split_ifs
  · exact retireSelf brk ha
  · exact refl T

theorem cascadeVisits (brk : Bool) (l : List Index) (hl : ∀ a ∈ l, A a) :
    Steady A T (l.foldl (Tables.cascadeVisit brk) T) := by
  induction l generalizing T with
  | nil => exact refl T
  | cons a l ih =>
    exact (cascadeVisit brk (hl a List.mem_cons_self)).trans (ih fun x hx => hl x (List.mem_cons_of_mem _ hx))

theorem retire (casc brk : Bool) {i : Index} (hi : A i) (hal : ∀ a ∈ (T.entry i).aliases, A a) :
    Steady A T (T.retire casc brk i) := by
  have hcasc : Steady A T (if casc = true then T.cascade brk i else T) := by
    split
    · exact cascadeVisits brk _ hal
    · exact refl T
  have hself := hcasc.trans (retireSelf brk hi)
  unfold Tables.retire
  dsimp only
  split
  · exact hself.trans (of_entry_eq (orderFrames_entry _ T))
  · exact hself

/-- The state of a LIVE or SUSPENDED record while its damage claim breaks holds and raises DAMAGED (R14). -/
theorem damageClaim_state {i : Index} (hs : (T.entry i).state = .live ∨ (T.entry i).state = .suspended)
    (xs : List (PortId × Token)) :
    ((((T.breakAll .damaged (some i) xs).leaveQueue i).raiseRecord i .damaged).entry i).state = (T.entry i).state := by
  obtain ⟨h1, -⟩ := Core.raiseRecord_fields ((T.breakAll .damaged (some i) xs).leaveQueue i) i .damaged i
  have hlife := (breakAll (A := fun _ => False) .damaged (some i) xs (T := T)).sameLife id
    (show (T.entry i).state ≠ .draining by rcases hs with hs | hs <;> rw [hs] <;> decide)
  rw [h1, leaveQueue_entry, if_pos rfl]
  exact hlife.1

theorem damageClaim {i : Index} (hi : A i) (g : Generation) : Steady A T (T.damageClaim i g) := by
  have hbroken : Steady A T (T.breakAll .damaged (some i) (T.heldWhere fun _ _ h => restsOn i h)) := breakAll _ _ _
  have hdamaged : (T.entry i).state = .live ∨ (T.entry i).state = .suspended →
      Steady A T ((((T.breakAll .damaged (some i) (T.heldWhere fun _ _ h => restsOn i h)).leaveQueue i).raiseRecord i
        .damaged).modEntry i fun e => { e with state := .damaged }) := by
    intro hs
    refine ((hbroken.trans (leaveQueue hi)).trans (raiseRecord i .damaged)).trans (changed hi (by decide) fun hf => ?_)
    rw [damageClaim_state hs] at hf
    rcases hs with hs | hs <;> rw [hs] at hf <;> rcases hf with hf | hf <;> cases hf
  unfold Tables.damageClaim
  split_ifs
  · exact refl T
  · dsimp only
    split
    any_goals exact refl T
    · exact hdamaged (Or.inl ‹_›)
    · exact hdamaged (Or.inr ‹_›)
    · exact (hbroken.trans (raiseRecord i .damaged)).trans (testDraining none i)

theorem lossClaims (l : List Index) (hl : ∀ i ∈ l, A i) : Steady A T (l.foldl State.lossClaim T) := by
  induction l generalizing T with
  | nil => exact refl T
  | cons i l ih =>
    refine Steady.trans ?_ (ih fun j hj => hl j (List.mem_cons_of_mem _ hj))
    unfold State.lossClaim
    split_ifs
    · exact refl T
    · exact damageClaim (hl i List.mem_cons_self) _

end Steady

end State

end Sys2Proof.Machine
end

section
/-! SUPPORT. The law of the pins, which breaks, retirements and damage claims keep by itself, and the core laws in
the same claims (R52, R55). -/

namespace Sys2Proof.Machine

open Tables

namespace State

variable {T T' : Tables}

/-! ## The law of the pins alone -/

theorem pinLaw_of_sameHolds (h : PinLaw T) (hs : SameHolds T T') (hpins : ∀ j, (T'.entry j).pins = (T.entry j).pins) :
    PinLaw T' := pinLaw_of_same h hpins hs.hold

theorem pinLaw_unpin (h : PinLaw T) (p : PortId) (t : Token) (y : HeldHold) (hy : T.hold p t = .held y) :
    PinLaw (T.unpin p t y .empty) :=
  pinLaw_ended h p t y hy .empty rfl (fun p' t' => unpin_hold T p p' t t' y _) fun j => by rw [unpin_entry]

theorem pinLaw_breakUnpin (h : PinLaw T) (reason : BreakReason) (p : PortId) (t : Token) (y : HeldHold)
    (hy : T.hold p t = .held y) : PinLaw (T.breakUnpin reason p t y) :=
  pinLaw_ended h p t y hy (.broken reason (sendsBroken (T.port p).state)) rfl
    (fun p' t' => T.breakUnpin_hold reason p p' t t' y) fun j => by rw [breakUnpin_entry]

theorem pinLaw_raiseRecord (h : PinLaw T) (i : Index) (r : RecReason) : PinLaw (T.raiseRecord i r) :=
  pinLaw_of_sameHolds h ((sameHolds_closed T).raiseRecord i r (SameHolds.refl T)) fun j =>
    (Core.raiseRecord_fields T i r j).2.1

theorem pinLaw_leaveTarget (h : PinLaw T) (i t : Index) : PinLaw (T.leaveTarget i t) :=
  pinLaw_of_sameHolds h ((sameHolds_closed T).leaveTarget i t (SameHolds.refl T)) fun j => by
    rw [leaveTarget_entry]
    split <;> rfl

theorem pinLaw_leaveQueue (h : PinLaw T) (i : Index) : PinLaw (T.leaveQueue i) :=
  pinLaw_of_sameHolds h ((sameHolds_closed T).leaveQueue i (SameHolds.refl T)) fun j => by
    rw [leaveQueue_entry]
    split <;> rfl

theorem pinLaw_changed (h : PinLaw T) (i : Index) (x : RecState) :
    PinLaw (T.modEntry i fun e => { e with state := x }) :=
  pinLaw_of_sameHolds h ((sameHolds_closed T).modEntry i _ (fun _ => rfl) (SameHolds.refl T)) fun j => by
    rw [entry_modEntry]
    split_ifs with hj
    · rw [hj.1]
    · rfl

theorem pinLaw_makeFree (h : PinLaw T) (i : Index) (hi : (T.entry i).pins = 0) : PinLaw (T.makeFree i) := by
  refine pinLaw_of_sameHolds h ((sameHolds_closed T).makeFree i (SameHolds.refl T)) fun j => ?_
  unfold Tables.makeFree
  dsimp only
  rw [entry_setEntry, countDownOf_entry]
  split_ifs with hj
  · rw [hj.1, hi]
    rfl
  · rfl

theorem pinLaw_joinOrPark (h : PinLaw T) (i : Index) : PinLaw (T.joinOrPark i) :=
  pinLaw_of_sameHolds h ((sameHolds_closed T).joinOrPark i (SameHolds.refl T)) fun j => by rw [joinOrPark_entry]

theorem pinLaw_testTarget (h : PinLaw T) (skip : Option Index) (t : Index) : PinLaw (testTarget skip T t) := by
  unfold Tables.testTarget
  split_ifs with hc
  · obtain ⟨-, hp, -⟩ := Core.of_completes hc.2
    obtain ⟨-, h2, -⟩ := Core.raiseRecord_fields T t .drained t
    exact pinLaw_joinOrPark (pinLaw_makeFree (pinLaw_raiseRecord h t .drained) t (h2.trans hp)) t
  · exact h

theorem pinLaw_becomeFree (h : PinLaw T) (skip : Option Index) (i : Index) (hi : (T.entry i).pins = 0) :
    PinLaw (becomeFree skip T i) := by
  unfold Tables.becomeFree
  dsimp only
  refine pinLaw_joinOrPark ?_ i
  split
  · exact pinLaw_testTarget (pinLaw_leaveTarget (pinLaw_makeFree h i hi) _ _) skip _
  · exact pinLaw_makeFree h i hi

theorem pinLaw_testDraining (h : PinLaw T) (skip : Option Index) (i : Index) : PinLaw (testDraining skip T i) := by
  unfold Tables.testDraining
  split_ifs with hc
  · obtain ⟨-, hp, -⟩ := Core.of_completes hc.2
    obtain ⟨-, h2, -⟩ := Core.raiseRecord_fields T i .drained i
    exact pinLaw_becomeFree (pinLaw_raiseRecord h i .drained) skip i (h2.trans hp)
  · exact h

theorem pinLaw_testRecords (h : PinLaw T) (skip : Option Index) (y : HeldHold) : PinLaw (testRecords skip T y) := by
  unfold Tables.testRecords
  dsimp only
  split_ifs
  · exact pinLaw_testDraining h skip _
  · exact pinLaw_testDraining (pinLaw_testDraining h skip _) skip _

theorem pinLaw_raiseBreak (h : PinLaw T) (reason : BreakReason) (damaged : Option Index) (i : Index) :
    PinLaw (raiseBreak reason damaged T i) := by
  unfold Tables.raiseBreak
  split_ifs
  · exact pinLaw_raiseRecord h i _
  · exact h

theorem pinLaw_breakHold (h : PinLaw T) (reason : BreakReason) (damaged : Option Index) (x : PortId × Token) :
    PinLaw (breakHold reason damaged T x) := by
  by_cases hx : ∃ y, T.hold x.1 x.2 = .held y
  · obtain ⟨y, hy⟩ := hx
    rw [breakHold_held reason damaged T x y hy]
    exact pinLaw_testRecords (pinLaw_raiseBreak (pinLaw_breakUnpin h reason _ _ y hy) reason damaged _) damaged y
  · rw [breakHold_not_held T reason damaged x fun y hy => hx ⟨y, hy⟩]
    exact h

theorem pinLaw_breakAll (h : PinLaw T) (reason : BreakReason) (damaged : Option Index) (xs : List (PortId × Token)) :
    PinLaw (T.breakAll reason damaged xs) := by
  unfold Tables.breakAll
  induction xs generalizing T with
  | nil => exact h
  | cons x xs ih => exact ih (pinLaw_breakHold h reason damaged x)

theorem pinLaw_finishRetire (h : PinLaw T) (i : Index) : PinLaw (T.finishRetire i) := by
  unfold Tables.finishRetire
  dsimp only
  split_ifs with hc
  · exact pinLaw_becomeFree (pinLaw_leaveQueue h i) none i hc.1
  · exact pinLaw_changed (pinLaw_leaveQueue h i) i _

theorem pinLaw_retireSelf (h : PinLaw T) (brk : Bool) (i : Index) : PinLaw (T.retireSelf brk i) := by
  rw [retireSelf_eq]
  split
  · exact pinLaw_finishRetire (pinLaw_breakAll h _ _ _) i
  · exact pinLaw_finishRetire h i

theorem pinLaw_cascadeVisits (h : PinLaw T) (brk : Bool) (l : List Index) :
    PinLaw (l.foldl (cascadeVisit brk) T) := by
  induction l generalizing T with
  | nil => exact h
  | cons a l ih =>
    refine ih ?_
    unfold cascadeVisit
    split_ifs
    · exact pinLaw_retireSelf h brk a
    · exact h

/-! ## The record whose holds a claim has broken -/

/-- No hold rests on a record after the break of those that did. -/
theorem not_restsOn_breakAll (reason : BreakReason) (damaged : Option Index) (T : Tables) (i : Index) (p : PortId)
    (t : Token) (h : HeldHold)
    (hh : (T.breakAll reason damaged (T.heldWhere fun _ _ h => restsOn i h)).hold p t = .held h) :
    restsOn i h = false ∧ T.hold p t = .held h := by
  rw [(Breaks.heldWhere (reason := reason) (T := T) damaged fun _ _ h => restsOn i h).hold] at hh
  split_ifs at hh with hm
  refine ⟨?_, hh⟩
  by_contra hr
  exact hm ((mem_heldTokensWhere ..).mpr ⟨h, hh, by simpa using hr⟩)

theorem restCount_eq_zero {i : Index} (h : ∀ p t y, T.hold p t = .held y → restsOn i y = false) :
    restCount T i = 0 := by
  unfold restCount
  rw [List.length_eq_zero_iff, List.filter_eq_nil_iff]
  intro x _
  unfold restsAt
  cases hx : T.hold x.1 x.2 with
  | held y => simp [h _ _ y hx]
  | _ => exact Bool.false_ne_true

theorem restCount_breakAll (reason : BreakReason) (damaged : Option Index) (T : Tables) (i : Index) :
    restCount (T.breakAll reason damaged (T.heldWhere fun _ _ h => restsOn i h)) i = 0 :=
  restCount_eq_zero fun p t y hy => (not_restsOn_breakAll reason damaged T i p t y hy).1

/-- It has no pin left, where pins keep their law. -/
theorem pins_breakAll (h : PinLaw T) (reason : BreakReason) (damaged : Option Index) (i : Index) :
    ((T.breakAll reason damaged (T.heldWhere fun _ _ h => restsOn i h)).entry i).pins = 0 :=
  (((pinLaw_iff _).mp (pinLaw_breakAll h reason damaged _)) i).1.trans (restCount_breakAll reason damaged T i)

/-! ## The core laws -/

theorem retirable_iff (x : RecState) : retirable x = true ↔ x = .live ∨ x = .suspended ∨ x = .damaged := by
  cases x <;> simp [retirable]

/-- A record that can be retired keeps its life while the holds of a claim are broken. -/
theorem sameLife_breakAll {i : Index} (hi : retirable (T.entry i).state = true)
    (reason : BreakReason) (damaged : Option Index) (xs : List (PortId × Token)) :
    SameLife (T.entry i) ((T.breakAll reason damaged xs).entry i) :=
  (Steady.breakAll (A := fun _ => False) reason damaged xs).sameLife id fun hd => by rw [hd] at hi; cases hi

namespace Core

theorem testRecords (h : Core T) (skip : Option Index) (y : HeldHold) : Core (testRecords skip T y) := by
  unfold Tables.testRecords
  dsimp only
  split_ifs
  · exact h.testDraining skip _
  · exact (h.testDraining skip _).testDraining skip _

theorem raiseBreak (h : Core T) (reason : BreakReason) (damaged : Option Index) (i : Index) :
    Core (raiseBreak reason damaged T i) := by
  unfold Tables.raiseBreak
  split_ifs
  · exact h.raiseRecord i _
  · exact h

theorem breakHold (h : Core T) (reason : BreakReason) (damaged : Option Index) (x : PortId × Token) :
    Core (breakHold reason damaged T x) := by
  by_cases hx : ∃ y, T.hold x.1 x.2 = .held y
  · obtain ⟨y, hy⟩ := hx
    rw [breakHold_held reason damaged T x y hy]
    exact ((h.breakUnpin reason _ _ y hy).raiseBreak reason damaged _).testRecords damaged y
  · rw [breakHold_not_held T reason damaged x fun y hy => hx ⟨y, hy⟩]
    exact h

theorem breakAll (h : Core T) (reason : BreakReason) (damaged : Option Index) (xs : List (PortId × Token)) :
    Core (T.breakAll reason damaged xs) := by
  unfold Tables.breakAll
  induction xs generalizing T with
  | nil => exact h
  | cons x xs ih => exact ih (h.breakHold reason damaged x)

theorem changed (h : Core T) (i : Index) (x : RecState) (hi : (T.entry i).state ≠ .free) (hx : x ≠ .free)
    (hp : x ≠ .pending) (hpins : x = .damaged → (T.entry i).pins = 0) :
    Core (T.modEntry i fun e => { e with state := x }) := by
  refine h.modEntry i (fun e => { e with state := x }) (fun _ => (h.entries i).changed hi x hx hp hpins)
    ⟨rfl, rfl, rfl⟩ (fun j => ?_) fun p t => ?_
  · rw [entry_modEntry]
  · rw [modEntry_rest]
    rfl

theorem finishRetire (h : Core T) (i : Index) (hi : (T.entry i).state ≠ .free) : Core (T.finishRetire i) := by
  have hq := h.leaveQueue i
  have hs : ((T.leaveQueue i).entry i).state ≠ .free := by
    rw [leaveQueue_entry, if_pos rfl]
    exact hi
  unfold Tables.finishRetire
  dsimp only
  split_ifs with hc
  · exact hq.becomeFree none i hs hc.1 hc.2
  · exact hq.changed i .draining hs (by decide) (by decide) fun e => (nomatch e)

theorem retireSelf (h : Core T) (brk : Bool) (i : Index) (hi : retirable (T.entry i).state = true) :
    Core (T.retireSelf brk i) := by
  have hs : (T.entry i).state ≠ .free := fun hf => by rw [hf] at hi; cases hi
  rw [retireSelf_eq]
  split
  · refine (h.breakAll _ _ _).finishRetire i ?_
    rw [(sameLife_breakAll hi _ _ _).1]
    exact hs
  · exact h.finishRetire i hs

theorem cascadeVisits (h : Core T) (brk : Bool) (l : List Index) : Core (l.foldl (cascadeVisit brk) T) := by
  induction l generalizing T with
  | nil => exact h
  | cons a l ih =>
    refine ih ?_
    unfold cascadeVisit
    split_ifs with ha
    · exact h.retireSelf brk a ha
    · exact h

end Core

end State

end Sys2Proof.Machine
end

section
/-! SUPPORT. A retirement, with and without cascade and break (R12, R66, R89, R90). -/

namespace Sys2Proof.Machine

open Tables

/-! ## A record becoming FREE (R15) -/

namespace Tables

variable {T : Tables}

theorem testTarget_entry_ne (skip : Option Index) {t j : Index} (hj : j ≠ t ∨ (T.entry j).state = .free) :
    (testTarget skip T t).entry j = T.entry j := by
  unfold testTarget
  split_ifs with hc
  · have hs := (State.Core.of_completes hc.2).1
    have hjt : j ≠ t := by
      rcases hj with hj | hj
      · exact hj
      · rintro rfl
        rw [hj] at hs
        cases hs
    have ht : t ≠ 0 := by
      rintro rfl
      cases hs
    rw [joinOrPark_entry, makeFree_entries _ t j ht, if_neg hjt, raiseRecord_entry_ne _ t j _ hjt]
  · rfl

/-- The record itself is FREE at its next generation; its reasons stay (R15). -/
theorem becomeFree_self (skip : Option Index) {i : Index} (hi : i ≠ 0) :
    (becomeFree skip T i).entry i = { StatusEntry.freeAt ((T.entry i).generation + 1) with
      reasons := (T.entry i).reasons, noticeGen := (T.entry i).noticeGen } := by
  have hself : (T.freed i).entry i = { StatusEntry.freeAt ((T.entry i).generation + 1) with
      reasons := (T.entry i).reasons, noticeGen := (T.entry i).noticeGen } := by
    rw [freed_entry T i i hi, if_pos rfl]
  rw [becomeFree_eq, joinOrPark_entry]
  cases (T.entry i).target with
  | none => exact hself
  | some t => exact (testTarget_entry_ne skip (Or.inr (by rw [hself]; rfl))).trans hself

/-- With a target that is not DRAINING no other record completes. -/
theorem becomeFree_of_target (skip : Option Index) {i : Index} (hi : i ≠ 0)
    (ht : ∀ t, (T.entry i).target = some t → t ≠ i ∧ (T.entry t).state ≠ .draining) :
    becomeFree skip T i = (T.freed i).joinOrPark i := by
  rw [becomeFree_eq]
  cases h : (T.entry i).target with
  | none => rfl
  | some t =>
    obtain ⟨hne, hs⟩ := ht t h
    have hnot : completes ((T.freed i).entry t) = false := by
      rw [freed_entry T i t hi, if_neg hne, if_pos h]
      exact completes_of_state _ hs
    show (testTarget skip (T.freed i) t).joinOrPark i = _
    unfold testTarget
    rw [if_neg fun hc => by rw [hnot] at hc; cases hc.2]

theorem becomeFree_expiryQueue (skip : Option Index) (i : Index) :
    (becomeFree skip T i).expiryQueue = T.expiryQueue := by
  have htest : ∀ (T : Tables) (t : Index), (testTarget skip T t).expiryQueue = T.expiryQueue := by
    intro T t
    unfold testTarget
    split_ifs
    · rw [joinOrPark_rest, makeFree_rest, raiseRecord_rest]
    · rfl
  have hfreed : (T.freed i).expiryQueue = T.expiryQueue := by rw [freed_rest]
  rw [becomeFree_eq, joinOrPark_rest]
  cases (T.entry i).target with
  | none => exact hfreed
  | some t => exact (htest (T.freed i) t).trans hfreed

/-! ## The end of a retirement (R90) -/

theorem leaveQueue_self (i : Index) : (T.leaveQueue i).entry i = { T.entry i with deadline := none } := by
  rw [leaveQueue_entry, if_pos rfl]

/-- A record with no pin and no alias is freed. -/
theorem finishRetire_of_unpinned {i : Index} (hp : (T.entry i).pins = 0) (ha : (T.entry i).aliases = []) :
    T.finishRetire i = becomeFree none (T.leaveQueue i) i := by
  unfold finishRetire
  dsimp only
  rw [leaveQueue_self, if_pos ⟨hp, ha⟩]

/-- Any other record becomes DRAINING. -/
theorem finishRetire_of_pinned {i : Index} (h : ¬ ((T.entry i).pins = 0 ∧ (T.entry i).aliases = [])) :
    T.finishRetire i = (T.leaveQueue i).modEntry i fun e => { e with state := .draining } := by
  unfold finishRetire
  dsimp only
  rw [leaveQueue_self, if_neg h]

theorem finishRetire_self {i : Index} (hi : i ≠ 0) : (T.finishRetire i).entry i =
    if (T.entry i).pins = 0 ∧ (T.entry i).aliases = [] then
      { StatusEntry.freeAt ((T.entry i).generation + 1) with
        reasons := (T.entry i).reasons, noticeGen := (T.entry i).noticeGen }
    else { T.entry i with state := .draining, deadline := none } := by
  by_cases hc : (T.entry i).pins = 0 ∧ (T.entry i).aliases = []
  · rw [if_pos hc, finishRetire_of_unpinned hc.1 hc.2, becomeFree_self none hi, leaveQueue_self]
  · rw [if_neg hc, finishRetire_of_pinned hc, entry_modEntry, if_pos ⟨rfl, hi⟩, leaveQueue_self]

theorem finishRetire_ended {i : Index} (hi : i ≠ 0) :
    ((T.finishRetire i).entry i).state = .free ∨ ((T.finishRetire i).entry i).state = .draining := by
  rw [finishRetire_self hi]
  split
  · exact Or.inl rfl
  · exact Or.inr rfl

theorem finishRetire_not_due (i : Index) : ∀ x ∈ (T.finishRetire i).expiryQueue, x.2 ≠ i := by
  have hq : (T.finishRetire i).expiryQueue = (T.leaveQueue i).expiryQueue := by
    unfold finishRetire
    dsimp only
    split_ifs
    · exact becomeFree_expiryQueue none i
    · rw [modEntry_rest]
  rw [hq]
  exact leaveQueue_not_mem T i

end Tables

namespace State

variable {T : Tables}

/-- The tables at which a retirement ends, its breaks done. -/
def brokenFor (brk : Bool) (T : Tables) (i : Index) : Tables :=
  if brk then T.breakAll .revoked none (T.heldWhere fun _ _ h => restsOn i h) else T

theorem retireSelf_brokenFor (brk : Bool) (T : Tables) (i : Index) :
    T.retireSelf brk i = (brokenFor brk T i).finishRetire i := rfl

theorem ne_zero_of_retirable {i : Index} (hi : retirable (T.entry i).state = true) : i ≠ 0 := by
  rintro rfl
  cases hi

theorem retireSelf_ended (brk : Bool) {i : Index} (hi : i ≠ 0) :
    ((T.retireSelf brk i).entry i).state = .free ∨ ((T.retireSelf brk i).entry i).state = .draining :=
  finishRetire_ended hi

/-! ## The holds that a retirement breaks -/

theorem retireSelf_breaks (i : Index) : Breaks .revoked T (T.retireSelf true i) (restingTokens T i) :=
  ((Breaks.heldWhere none fun _ _ h => restsOn i h).then_sameHolds
    ((sameHolds_closed _).finishRetire i (SameHolds.refl _))).congr fun p => (restingTokens_eq T i p).symm

theorem mem_restingTokens (T : Tables) (i : Index) (p : PortId) (t : Token) :
    t ∈ restingTokens T i p ↔ ∃ h, T.hold p t = .held h ∧ restsOn i h = true := by
  rw [restingTokens_eq, mem_heldTokensWhere]

/-- What rests on a record after some breaks rested on it before, and was not among those broken. -/
theorem Breaks.mem_restingTokens {reason : BreakReason} {T' : Tables} {l : PortId → List Token}
    (h : Breaks reason T T' l) (i : Index) (p : PortId) (t : Token) :
    t ∈ restingTokens T' i p ↔ t ∈ restingTokens T i p ∧ t ∉ l p := by
  rw [State.mem_restingTokens, State.mem_restingTokens, h.hold]
  by_cases ht : t ∈ l p <;> simp [ht]

/-- A record that another's retirement leaves can be retired as before. -/
theorem Steady.retirable {A : Index → Prop} {T' : Tables} (h : Steady A T T') {j : Index} (hA : ¬ A j) :
    Tables.retirable (T'.entry j).state = Tables.retirable (T.entry j).state := by
  rcases (h j).life hA with ⟨hs, -⟩ | ⟨hd, hf, -⟩
  · rw [hs]
  · rw [hd, hf]
    rfl

/-- A cascade with break breaks the holds that rest on the records that it retires (R66, R89). -/
theorem cascadeVisits_breaks (l : List Index) (T : Tables) :
    ∃ ks, Breaks .revoked T (l.foldl (cascadeVisit true) T) ks ∧
      ∀ p t, t ∈ ks p ↔ ∃ a ∈ l, retirable (T.entry a).state = true ∧ t ∈ restingTokens T a p := by
  induction l generalizing T with
  | nil => exact ⟨fun _ => [], Breaks.of_sameHolds (SameHolds.refl T), by simp⟩
  | cons a l ih =>
    obtain ⟨ks, hks, hmem⟩ := ih (cascadeVisit true T a)
    by_cases ha : retirable (T.entry a).state = true
    · have hvisit : cascadeVisit true T a = T.retireSelf true a := if_pos ha
      rw [hvisit] at hks hmem
      have h1 := retireSelf_breaks (T := T) a
      refine ⟨_, by rw [List.foldl_cons, hvisit]; exact h1.trans hks, fun p t => ?_⟩
      have hsteady : Steady (fun j => j = a) T (T.retireSelf true a) := Steady.retireSelf true rfl
      rw [List.mem_append, hmem]
      constructor
      · rintro (ht | ⟨b, hb, hr, ht⟩)
        · exact ⟨a, List.mem_cons_self, ha, ht⟩
        · have hba : b ≠ a := by
            rintro rfl
            rcases retireSelf_ended (T := T) true (ne_zero_of_retirable ha) with he | he <;> rw [he] at hr <;> cases hr
          exact ⟨b, List.mem_cons_of_mem _ hb, hsteady.retirable hba ▸ hr, ((h1.mem_restingTokens b p t).mp ht).1⟩
      · rintro ⟨b, hb, hr, ht⟩
        by_cases hta : t ∈ restingTokens T a p
        · exact Or.inl hta
        · have hba : b ≠ a := by
            rintro rfl
            exact hta ht
          exact Or.inr ⟨b, (List.mem_cons.mp hb).resolve_left hba, (hsteady.retirable hba).trans hr,
            (h1.mem_restingTokens b p t).mpr ⟨ht, hta⟩⟩
    · have hvisit : cascadeVisit true T a = T := if_neg ha
      rw [hvisit] at hks hmem
      refine ⟨ks, by rw [List.foldl_cons, hvisit]; exact hks, fun p t => (hmem p t).trans ?_⟩
      simp [ha]

/-- The tables at which the record itself is retired, its aliases visited. -/
def cascaded (casc brk : Bool) (T : Tables) (i : Index) : Tables := if casc then cascade brk T i else T

theorem cascaded_breaks (casc : Bool) (T : Tables) (i : Index) :
    ∃ ks, Breaks .revoked T (cascaded casc true T i) ks ∧ ∀ p t, t ∈ ks p ↔ casc = true ∧
      ∃ a ∈ (T.entry i).aliases, retirable (T.entry a).state = true ∧ t ∈ restingTokens T a p := by
  cases casc with
  | false => exact ⟨fun _ => [], Breaks.of_sameHolds (SameHolds.refl T), by simp⟩
  | true =>
    obtain ⟨ks, hks, hmem⟩ := cascadeVisits_breaks (T.entry i).aliases T
    exact ⟨ks, hks, fun p t => (hmem p t).trans (by simp)⟩

/-- A retirement with break breaks the holds of `retiredTokens` and no others (R66, R89, R90). -/
theorem retire_breaksHolds (casc : Bool) (T : Tables) (i : Index) :
    BreaksHolds .revoked T (T.retire casc true i) (retiredTokens T casc i) := by
  obtain ⟨ks, hks, hmem⟩ := cascaded_breaks casc T i
  have h := (hks.trans (retireSelf_breaks (T := cascaded casc true T i) i)).ordered
  have hks' : (fun p => allTokens.filter fun t => decide (t ∈ ks p ++ restingTokens (cascaded casc true T i) i p)) =
      retiredTokens T casc i := by
    funext p
    unfold retiredTokens
    refine List.filter_congr fun t _ => ?_
    have hsplit : t ∈ ks p ++ restingTokens (cascaded casc true T i) i p ↔ t ∈ restingTokens T i p ∨ t ∈ ks p := by
      rw [List.mem_append, hks.mem_restingTokens]
      tauto
    rw [Bool.eq_iff_iff]
    simp only [decide_eq_true_eq, Bool.or_eq_true, Bool.and_eq_true, List.any_eq_true, hsplit, hmem]
  rw [hks'] at h
  exact h

/-! ## What becomes of the records -/

theorem retire_entry (casc brk : Bool) (T : Tables) (i j : Index) :
    (T.retire casc brk i).entry j = ((cascaded casc brk T i).retireSelf brk i).entry j := by
  unfold retire
  dsimp only
  split
  · rw [orderFrames_entry]
    rfl
  · rfl

theorem retire_expiryQueue (casc brk : Bool) (T : Tables) (i : Index) :
    (T.retire casc brk i).expiryQueue = ((cascaded casc brk T i).retireSelf brk i).expiryQueue := by
  unfold retire
  dsimp only
  split <;> rfl

/-- Each record that a cascade visits and that can be retired has ended after it (R89). -/
theorem cascadeVisits_ended (brk : Bool) (l : List Index) (T : Tables) {a : Index} (ha : a ∈ l)
    (hr : retirable (T.entry a).state = true) :
    ((l.foldl (cascadeVisit brk) T).entry a).state = .free ∨
      ((l.foldl (cascadeVisit brk) T).entry a).state = .draining := by
  induction l generalizing T with
  | nil => exact absurd ha List.not_mem_nil
  | cons b l ih =>
    have hsteady : Steady (fun _ => True) (cascadeVisit brk T b) (l.foldl (cascadeVisit brk) (cascadeVisit brk T b)) :=
      Steady.cascadeVisits brk l fun _ _ => trivial
    by_cases hab : a = b
    · subst hab
      refine (hsteady a).ended ?_
      have hvisit : cascadeVisit brk T a = T.retireSelf brk a := if_pos hr
      rw [hvisit]
      exact retireSelf_ended brk (ne_zero_of_retirable hr)
    · refine ih (cascadeVisit brk T b) ((List.mem_cons.mp ha).resolve_left hab) ?_
      have hv : Steady (fun j => j = b) T (cascadeVisit brk T b) := Steady.cascadeVisit brk rfl
      rw [hv.retirable hab]
      exact hr

/-- With break, a record with no alias is freed where the core laws hold. -/
theorem retireSelf_freed (h : Core T) {i : Index} (hi : retirable (T.entry i).state = true)
    (ha : (T.entry i).aliases = []) :
    ((T.retireSelf true i).entry i).state = .free ∧
      ((T.retireSelf true i).entry i).generation = (T.entry i).generation + 1 := by
  have hal : ((brokenFor true T i).entry i).aliases = [] := by
    have hsub := ((Steady.breakAll (A := fun _ => False) .revoked none (T.heldWhere fun _ _ h => restsOn i h)
      (T := T)) i).aliases
    rw [ha] at hsub
    exact List.sublist_nil.mp hsub
  obtain ⟨-, hg, -⟩ := sameLife_breakAll hi .revoked none (T.heldWhere fun _ _ h => restsOn i h)
  rw [retireSelf_brokenFor, finishRetire_self (ne_zero_of_retirable hi),
    if_pos ⟨pins_breakAll h.pins .revoked none i, hal⟩]
  exact ⟨rfl, congrArg (· + 1) hg⟩

/-- With break, every alias that a cascade visits is freed where the core laws hold (R66, R89). -/
theorem cascadeVisits_freed (l : List Index) (T : Tables) (h : Core T) (hn : l.Nodup)
    (hl : ∀ a ∈ l, retirable (T.entry a).state = true ∧ (T.entry a).aliases = []) :
    ∀ a ∈ l, ((l.foldl (cascadeVisit true) T).entry a).state = .free ∧
      ((l.foldl (cascadeVisit true) T).entry a).generation = (T.entry a).generation + 1 := by
  induction l generalizing T with
  | nil => exact fun a ha => absurd ha List.not_mem_nil
  | cons b l ih =>
    obtain ⟨hb, hn⟩ := List.nodup_cons.mp hn
    obtain ⟨hbr, hba⟩ := hl b List.mem_cons_self
    have hvisit : cascadeVisit true T b = T.retireSelf true b := if_pos hbr
    have hsteady : Steady (fun j => j = b) T (T.retireSelf true b) := Steady.retireSelf true rfl
    rw [List.foldl_cons, hvisit]
    intro a ha
    rcases List.mem_cons.mp ha with rfl | ha
    · obtain ⟨hf, hg⟩ := retireSelf_freed h hbr hba
      have hrest : Steady (fun j => j ∈ l) (T.retireSelf true a) (l.foldl (cascadeVisit true) (T.retireSelf true a)) :=
        Steady.cascadeVisits true l fun _ hx => hx
      obtain ⟨h1, h2, -⟩ := hrest.sameLife (j := a) hb (by rw [hf]; decide)
      exact ⟨h1.trans hf, h2.trans hg⟩
    · have hother : ∀ c ∈ l, c ≠ b := fun c hc e => hb (e ▸ hc)
      obtain ⟨hf, hg⟩ := ih (T.retireSelf true b) (h.retireSelf true b hbr) hn (fun c hc => by
        obtain ⟨hr, hal⟩ := hl c (List.mem_cons_of_mem _ hc)
        have hsub := (hsteady c).aliases
        rw [hal] at hsub
        exact ⟨(hsteady.retirable (hother c hc)).trans hr, List.sublist_nil.mp hsub⟩) a ha
      obtain ⟨har, -⟩ := hl a (List.mem_cons_of_mem _ ha)
      obtain ⟨-, hlife, -⟩ := hsteady.sameLife (j := a) (hother a ha) fun hd => by rw [hd] at har; cases har
      exact ⟨hf, hg.trans (congrArg (· + 1) hlife)⟩

/-- With break, a record and its aliases are freed where they can be retired and the core laws hold. -/
theorem retire_freed (h : Core T) (casc : Bool) {i : Index} (hi : retirable (T.entry i).state = true)
    (hcasc : casc = true ∨ (T.entry i).aliases = [])
    (hal : ∀ a ∈ (T.entry i).aliases, retirable (T.entry a).state = true) :
    ∀ j ∈ i :: (T.entry i).aliases, ((T.retire casc true i).entry j).state = .free ∧
      ((T.retire casc true i).entry j).generation = (T.entry j).generation + 1 := by
  have hvisits : cascaded casc true T i = (T.entry i).aliases.foldl (cascadeVisit true) T := by
    rcases hcasc with rfl | ha
    · rfl
    · rw [ha]
      unfold cascaded cascade
      rw [ha]
      exact ite_self _
  have hmem := fun a ha => h.of_mem (i := i) (a := a) ha
  have hfreed := cascadeVisits_freed (T.entry i).aliases T h (h.aliases.2 i).1 fun a ha => by
    obtain ⟨-, -, h0, -⟩ := hmem a ha
    exact ⟨hal a ha, h0⟩
  have hcore := h.cascadeVisits true (T.entry i).aliases
  have hnot : i ∉ (T.entry i).aliases := fun ha => (hmem i ha).2.2.2 rfl
  have hsteady : Steady (fun j => j ∈ (T.entry i).aliases) T ((T.entry i).aliases.foldl (cascadeVisit true) T) :=
    Steady.cascadeVisits true _ fun _ hx => hx
  obtain ⟨hstate, hgen, -⟩ := hsteady.sameLife hnot fun hd => by rw [hd] at hi; cases hi
  have hempty : (((T.entry i).aliases.foldl (cascadeVisit true) T).entry i).aliases = [] := by
    refine List.eq_nil_iff_forall_not_mem.mpr fun a ha => ?_
    exact (hcore.of_mem ha).2.1 (hfreed a ((hsteady i).aliases.subset ha)).1
  obtain ⟨hf, hg⟩ := retireSelf_freed hcore (by rw [hstate]; exact hi) hempty
  intro j hj
  rw [retire_entry, hvisits]
  rcases List.mem_cons.mp hj with rfl | hj
  · exact ⟨hf, hg.trans (congrArg (· + 1) hgen)⟩
  · obtain ⟨hjf, hjg⟩ := hfreed j hj
    have hself : Steady (fun k => k = i) ((T.entry i).aliases.foldl (cascadeVisit true) T)
        (((T.entry i).aliases.foldl (cascadeVisit true) T).retireSelf true i) := Steady.retireSelf true rfl
    obtain ⟨h1, h2, -⟩ := hself.sameLife (j := j) (by rintro rfl; exact hnot hj) (by rw [hjf]; decide)
    exact ⟨h1.trans hjf, h2.trans hjg⟩

/-- With break, the record has no pin left where pins kept their law, and is FREE with no alias left. -/
theorem retire_unpinned (h : PinLaw T) (casc : Bool) {i : Index} (hi : i ≠ 0) :
    ((T.retire casc true i).entry i).pins = 0 ∧
      (((T.retire casc true i).entry i).aliases = [] → ((T.retire casc true i).entry i).state = .free) := by
  have hcasc : PinLaw (cascaded casc true T i) := by
    unfold cascaded
    split
    · exact pinLaw_cascadeVisits h true _
    · exact h
  have hpins : ((brokenFor true (cascaded casc true T i) i).entry i).pins = 0 := pins_breakAll hcasc .revoked none i
  rw [retire_entry, retireSelf_brokenFor, finishRetire_self hi]
  split_ifs with hc
  · exact ⟨rfl, fun _ => rfl⟩
  · exact ⟨hpins, fun ha => absurd ⟨hpins, ha⟩ hc⟩

/-- A retirement does what `Retires` says. -/
theorem retires_retire (casc brk : Bool) {i : Index} (hi : retirable (T.entry i).state = true) :
    Retires casc brk i T (T.retire casc brk i) := by
  have h0 := ne_zero_of_retirable hi
  refine ⟨?_, ?_, ?_, ?_, ?_, ?_⟩
  · rw [retire_entry]
    exact retireSelf_ended brk h0
  · rw [retire_expiryQueue]
    exact finishRetire_not_due i
  · rintro rfl
    have hs := (sameHolds_closed T).retire_keep casc i (SameHolds.refl T)
    exact ⟨hs.holds, hs.outbound⟩
  · rintro rfl
    exact ⟨retire_breaksHolds casc T i, fun hp => retire_unpinned hp casc h0⟩
  · rintro rfl a ha hs
    rw [retire_entry]
    have hself : Steady (fun k => k = i) (cascaded true brk T i) ((cascaded true brk T i).retireSelf brk i) :=
      Steady.retireSelf brk rfl
    exact (hself a).ended (cascadeVisits_ended brk _ T ha ((retirable_iff _).mpr hs))
  · rintro rfl hcasc he ha hp hal
    exact retire_freed ⟨he, ha, hp⟩ casc hi hcasc fun a ha => (retirable_iff _).mpr (hal a ha)

end State

end Sys2Proof.Machine
end

section
/-! SUPPORT. A retirement without break of a record with no alias, and what REVOKE and the sweep do (R88, R90, R128). -/

namespace Sys2Proof.Machine

open Tables

namespace Tables

variable {T : Tables} {i : Index}

/-- Without break and with no alias to visit, a retirement is its end alone. -/
theorem retire_of_no_alias (casc : Bool) (h : (T.entry i).aliases = []) : T.retire casc false i = T.finishRetire i := by
  have hcasc : (if casc = true then T.cascade false i else T) = T := by
    unfold cascade
    rw [h]
    exact ite_self _
  unfold retire
  dsimp only
  rw [hcasc]
  rfl

theorem finishRetire_pinned_entry (hi : i ≠ 0) (h : ¬ ((T.entry i).pins = 0 ∧ (T.entry i).aliases = [])) (j : Index) :
    (T.finishRetire i).entry j =
      if j = i then { T.entry i with state := .draining, deadline := none } else T.entry j := by
  by_cases hj : j = i
  · rw [if_pos hj, hj, finishRetire_self hi, if_neg h]
  · rw [if_neg hj, finishRetire_of_pinned h, entry_modEntry, if_neg fun e => hj e.1, leaveQueue_entry, if_neg hj]

theorem finishRetire_pinned_rest (h : ¬ ((T.entry i).pins = 0 ∧ (T.entry i).aliases = [])) :
    T.finishRetire i = { T with
      rst := (T.finishRetire i).rst
      expiryQueue := T.expiryQueue.filter fun x => x.2 != i } := by
  rw [finishRetire_of_pinned h, modEntry_rest, leaveQueue_rest]

/-- A record with no pin and no alias, whose target does not drain, is freed alone (R15, R90). -/
theorem finishRetire_freed (hi : i ≠ 0) (hp : (T.entry i).pins = 0) (ha : (T.entry i).aliases = [])
    (ht : ∀ t, (T.entry i).target = some t → t ≠ i ∧ (T.entry t).state ≠ .draining) :
    T.finishRetire i = ((T.leaveQueue i).freed i).joinOrPark i := by
  rw [finishRetire_of_unpinned hp ha]
  refine becomeFree_of_target none hi fun t h => ?_
  rw [leaveQueue_self] at h
  obtain ⟨hne, hs⟩ := ht t h
  rw [leaveQueue_entry, if_neg hne]
  exact ⟨hne, hs⟩

theorem finishRetire_freed_entry (hi : i ≠ 0) (hp : (T.entry i).pins = 0) (ha : (T.entry i).aliases = [])
    (ht : ∀ t, (T.entry i).target = some t → t ≠ i ∧ (T.entry t).state ≠ .draining) {j : Index} (hj : j ≠ i) :
    (T.finishRetire i).entry j = if (T.entry i).target = some j then
      { T.entry j with aliases := (T.entry j).aliases.erase i } else T.entry j := by
  rw [finishRetire_freed hi hp ha ht, joinOrPark_entry, freed_entry _ i j hi, if_neg hj, leaveQueue_self,
    leaveQueue_entry, if_neg hj]

theorem finishRetire_freed_rest (hi : i ≠ 0) (hp : (T.entry i).pins = 0) (ha : (T.entry i).aliases = [])
    (ht : ∀ t, (T.entry i).target = some t → t ≠ i ∧ (T.entry t).state ≠ .draining) :
    T.finishRetire i = { T with
      rst := (T.finishRetire i).rst
      expiryQueue := T.expiryQueue.filter fun x => x.2 != i
      domains := (T.countDownOf (T.entry i).domain).domains
      freeList := if (T.entry i).reasons = ⟨false, false, false, false⟩ then T.freeList ++ [i] else T.freeList } := by
  have hreasons : (((T.leaveQueue i).freed i).entry i).reasons = (T.entry i).reasons := by
    rw [freed_entry _ i i hi, if_pos rfl, leaveQueue_self]
  have hlist : (((T.leaveQueue i).freed i).joinOrPark i).freeList =
      if (T.entry i).reasons = ⟨false, false, false, false⟩ then T.freeList ++ [i] else T.freeList := by
    have hl : ((T.leaveQueue i).freed i).freeList = T.freeList := by rw [freed_rest, leaveQueue_rest]
    unfold joinOrPark
    rw [hreasons]
    by_cases hr : (T.entry i).reasons.isEmpty = true
    · rw [if_pos hr, if_pos (c := _ = RecordReasons.mk _ _ _ _) ((isEmpty_iff _).mp hr)]
      exact congrArg (· ++ [i]) hl
    · rw [if_neg hr, if_neg (c := _ = RecordReasons.mk _ _ _ _) fun e => hr ((isEmpty_iff _).mpr e)]
      exact hl
  have hdomains : ∀ o, ((T.leaveQueue i).countDownOf o).domains = (T.countDownOf o).domains := by
    intro o
    cases o with
    | none => rw [leaveQueue_rest]
              rfl
    | some d => rw [leaveQueue_rest]
                rfl
  have hq : (((T.leaveQueue i).freed i).joinOrPark i) = { T with
      rst := (((T.leaveQueue i).freed i).joinOrPark i).rst
      expiryQueue := T.expiryQueue.filter fun x => x.2 != i
      domains := (T.countDownOf (T.entry i).domain).domains
      freeList := (((T.leaveQueue i).freed i).joinOrPark i).freeList } := by
    rw [joinOrPark_rest, freed_rest, leaveQueue_self, hdomains, leaveQueue_rest]
  rw [hlist] at hq
  rw [finishRetire_freed hi hp ha ht]
  exact hq

end Tables

namespace State

/-- A REVOKE that no test refuses retires the record (R88). -/
theorem exec_revoke_of_passes {s : State} {a : RevokeArgs} {i : Index} (h : s.listening) (hi : a.index.toNat = i.val)
    (hf : a.flags.toNat ≤ 3) (hst : s.revokeRefusal i a.generation (a.flags.getLsbD 0) = none) :
    exec (.revoke a) s = .next (State.answered
      { s with tables := s.tables.retire (a.flags.getLsbD 0) (a.flags.getLsbD 1) i } (.revoke a)
      (revokeStatus (s.tables.retire (a.flags.getLsbD 0) (a.flags.getLsbD 1) i) i) (handleBytes i a.generation)) := by
  have hst' : (s.acceptance (.revoke a)).revokeRefusal i a.generation (a.flags.getLsbD 0) = none := hst
  simp only [exec_revoke s a h, acceptRevoke, indexOf_eq_some hi, revokeFlags_eq_some hf, hst']
  rfl

theorem revokeRefusal_of_retirable {s : State} {i : Index} {g : Generation} {casc : Bool} (h0 : i ≠ 0)
    (hg : (s.tables.entry i).generation = g)
    (hs : (s.tables.entry i).state = .live ∨ (s.tables.entry i).state = .suspended ∨
      (s.tables.entry i).state = .damaged) (ha : (s.tables.entry i).aliases = [] ∨ casc = true) :
    s.revokeRefusal i g casc = none := by
  have hstale : ¬ ((s.tables.entry i).state = .free ∨ (s.tables.entry i).state = .pending ∨
      (s.tables.entry i).generation ≠ g) := by
    rcases hs with hs | hs | hs <;> simp [hs, hg]
  have hdrain : (s.tables.entry i).state ≠ .draining := by
    rcases hs with hs | hs | hs <;> rw [hs] <;> decide
  have hal : ¬ ((s.tables.entry i).aliases ≠ [] ∧ casc = false) := by
    rintro ⟨h1, h2⟩
    rcases ha with ha | ha
    · exact h1 ha
    · rw [ha] at h2
      cases h2
  rw [revokeRefusal_eq]
  dsimp only
  rw [if_neg h0, if_neg hstale, if_neg hdrain, if_neg hal]

end State

open State in
/-- Settles O28: the retirement of a REVOKE, without break on a record with no alias, and in every form. -/
theorem revokeRetires : Obligations.RevokeRetires := by
  refine ⟨fun s a i d h hi h0 hf hg hs ha hd ht => ?_, fun s a i h hi hf hg hs h0 ha => ?_⟩
  · have hbrk : a.flags.getLsbD 1 = false := by
      rw [BitVec.getLsbD, Nat.testBit_eq_decide_div_mod_eq]
      have : a.flags.toNat / 2 ^ 1 = 0 := by omega
      rw [this]
      rfl
    have hexec := exec_revoke_of_passes h hi (by omega) (revokeRefusal_of_retirable h0 hg hs (Or.inl ha))
    rw [hbrk, retire_of_no_alias _ ha] at hexec
    refine ⟨fun hp => ?_, fun hp => ?_⟩
    · have hnot : ¬ ((s.tables.entry i).pins = 0 ∧ (s.tables.entry i).aliases = []) := fun e => hp e.1
      have hent := Tables.finishRetire_pinned_entry h0 hnot
      have hst : revokeStatus (s.tables.finishRetire i) i = .accepted := by
        unfold revokeStatus
        rw [hent, if_pos rfl]
        rfl
      rw [hst] at hexec
      refine ⟨_, hexec, (hent i).trans (if_pos rfl), fun j hj => (hent j).trans (if_neg hj), ?_⟩
      show State.answered { s with tables := s.tables.finishRetire i } _ _ _ = _
      rw [Tables.finishRetire_pinned_rest hnot]
      rfl
    · have hself := Tables.finishRetire_self (T := s.tables) h0
      rw [if_pos ⟨hp, ha⟩, hg] at hself
      have hst : revokeStatus (s.tables.finishRetire i) i = .done := by
        unfold revokeStatus
        rw [hself]
        rfl
      rw [hst] at hexec
      refine ⟨_, hexec, hself, fun j hj => Tables.finishRetire_freed_entry h0 hp ha ht hj, ?_⟩
      show State.answered { s with tables := s.tables.finishRetire i } _ _ _ = _
      rw [Tables.finishRetire_freed_rest h0 hp ha ht, hd]
      rfl
  · refine ⟨_, exec_revoke_of_passes h hi hf (revokeRefusal_of_retirable h0 hg hs ha), ?_⟩
    exact retires_retire _ _ ((retirable_iff _).mpr hs)

/-! ## The domains that a claim on records leaves (R122) -/

namespace State

/-- The states and quotas of the domains stay. -/
def SameDomains (T T' : Tables) : Prop :=
  ∀ d, (T'.domain d).state = (T.domain d).state ∧ (T'.domain d).quota = (T.domain d).quota

theorem SameDomains.refl (T : Tables) : SameDomains T T := fun _ => ⟨rfl, rfl⟩

theorem SameDomains.of_domains {T0 T T' : Tables} (h : SameDomains T0 T) (hd : T'.domains = T.domains) :
    SameDomains T0 T' := fun d => by
  unfold Tables.domain
  rw [hd]
  exact h d

theorem sameDomains_closed (T0 : Tables) : HoldClosed (SameDomains T0) where
  setEntry i e h _ := h.of_domains (by rw [setEntry_rest])
  raiseRecord i r h := h.of_domains (by rw [raiseRecord_rest])
  count d n h := fun d' => by
    rw [domain_setDomain]
    split_ifs with hd
    · rw [hd]
      exact h d
    · exact h d'
  freeList _ h := h
  expiryQueue _ h := h
  setHold _ _ _ h := h
  outbound _ h := h
  fillOrder _ h := h

/-! ## The sweep (R128, R129) -/

theorem sweepRecord_of_retirable {T : Tables} {d : DomainId} {i : Index} (hd : (T.entry i).domain = some d)
    (hi : retirable (T.entry i).state = true) : sweepRecord T d i = T.retire true true i := if_pos ⟨hd, hi⟩

theorem sweepRecord_of_not {T : Tables} {d : DomainId} {i : Index}
    (h : ¬ ((T.entry i).domain = some d ∧ retirable (T.entry i).state = true)) : sweepRecord T d i = T := if_neg h

theorem sweepRecord_domains (T : Tables) (d : DomainId) (i : Index) : SameDomains T (sweepRecord T d i) := by
  unfold sweepRecord
  split
  · exact (sameDomains_closed T).breaks.retire true true i (SameDomains.refl T)
  · exact SameDomains.refl T

theorem sweepVisit_last {s : State} {d : DomainId} (h : s.sweep = some ⟨d, lastIndex⟩) :
    s.sweepVisit = { s with tables := sweepEnd (sweepRecord s.tables d lastIndex) d, sweep := none } := by
  unfold sweepVisit
  simp only [h]
  rfl

theorem sweepVisit_next {s : State} {d : DomainId} {i : Index} (h : s.sweep = some ⟨d, i⟩) (hi : i ≠ lastIndex) :
    s.sweepVisit = { s with tables := sweepRecord s.tables d i, sweep := some ⟨d, i + 1⟩ } := by
  unfold sweepVisit
  simp only [h, if_neg hi]
  rfl

theorem sweepEnd_domain (T : Tables) (d d' : DomainId) :
    (sweepEnd T d).domain d' =
      if d' = d then { T.domain d with state := .closed, quota := 0 } else T.domain d' :=
  domain_setDomain T d d' _

/-- What is read of the end of a retirement stays when the sweep ends. -/
theorem retires_sweepEnd {casc brk : Bool} {i : Index} {T T' : Tables} (h : Retires casc brk i T T') (d : DomainId) :
    Retires casc brk i T (sweepEnd T' d) := h

end State

open State in
/-- Settles O49: a visit of the sweep retires the record at its cursor, and the last one closes the domain. -/
theorem sweepVisitRetires : Obligations.SweepVisitRetires := by
  intro s
  refine ⟨fun h => ?_, fun d i h => ⟨s.sweepVisit, rfl, ?_⟩⟩
  · show Host.Outcome.next s.sweepVisit = _
    unfold State.sweepVisit
    rw [h]
  · have hsame := sweepRecord_domains s.tables d i
    have hnot : (s.tables.entry i).domain ≠ some d ∨ (s.tables.entry i).state = .free ∨
        (s.tables.entry i).state = .pending ∨ (s.tables.entry i).state = .draining →
        sweepRecord s.tables d i = s.tables := fun hn => sweepRecord_of_not fun ⟨hd, hr⟩ => by
      rcases hn with hn | hn
      · exact hn hd
      · rcases hn with hn | hn | hn <;> rw [hn] at hr <;> cases hr
    by_cases hi : i = 4095
    · subst hi
      rw [sweepVisit_last h]
      refine ⟨(if_pos rfl).symm, rfl, fun hd hs => ?_, fun hn => ?_, fun _ => ?_, fun d' hd' => ?_⟩
      · have hr := retires_retire true true ((retirable_iff _).mpr hs)
        rw [← sweepRecord_of_retirable hd ((retirable_iff _).mpr hs)] at hr
        exact retires_sweepEnd hr d
      · show sweepEnd (sweepRecord s.tables d lastIndex) d = _
        rw [show sweepRecord s.tables d lastIndex = s.tables from hnot hn, if_pos rfl]
        unfold sweepEnd Tables.raiseClosed Tables.setDomain
        dsimp only
        split <;> simp
      · show ((sweepEnd _ d).domain d).state = _ ∧ ((sweepEnd _ d).domain d).quota = _ ∧ _
        rw [sweepEnd_domain, if_pos rfl]
        exact ⟨rfl, rfl, pick_place_self _ _ _⟩
      · have hne : d' ≠ d := hd'.resolve_right fun e => e rfl
        show ((sweepEnd _ d).domain d').state = _ ∧ ((sweepEnd _ d).domain d').quota = _
        rw [sweepEnd_domain, if_neg hne]
        exact hsame d'
    · rw [sweepVisit_next h hi]
      refine ⟨(if_neg hi).symm, rfl, fun hd hs => ?_, fun hn => (hnot hn).trans (if_neg hi).symm,
        fun e => absurd e hi, fun d' _ => hsame d'⟩
      show Retires true true i s.tables (sweepRecord s.tables d i)
      rw [sweepRecord_of_retirable hd ((retirable_iff _).mpr hs)]
      exact retires_retire true true ((retirable_iff _).mpr hs)

end Sys2Proof.Machine
end

section
/-! SUPPORT. A hold timer, and the completion of a DRAINING record (R13, R15, R61). -/

namespace Sys2Proof.Machine

open Tables

namespace Tables

variable {T : Tables}

/-- The first reason to stand puts the record on the Notice List (R111). -/
theorem raiseRecord_notices {i : Index} (r : RecReason) (h : (T.entry i).state ≠ .free) :
    (T.raiseRecord i r).notices = T.notices ++
      if (T.entry i).reasons = ⟨false, false, false, false⟩ then [.record i] else [] := by
  unfold raiseRecord
  dsimp only
  rw [if_neg h]
  by_cases hr : (T.entry i).reasons.isEmpty = true
  · rw [if_pos hr, if_pos (c := _ = RecordReasons.mk _ _ _ _) ((isEmpty_iff _).mp hr)]
  · rw [if_neg hr, if_neg (c := _ = RecordReasons.mk _ _ _ _) fun e => hr ((isEmpty_iff _).mpr e), setEntry_rest,
      List.append_nil]

/-- The notice generation that a reason raised leaves (R111). -/
theorem ite_isEmpty {α : Type} (r : RecordReasons) (x y : α) :
    (if r.isEmpty = true then x else y) = if r = ⟨false, false, false, false⟩ then x else y := by
  by_cases hr : r.isEmpty = true
  · rw [if_pos hr, if_pos (c := _ = RecordReasons.mk _ _ _ _) ((isEmpty_iff _).mp hr)]
  · rw [if_neg hr, if_neg (c := _ = RecordReasons.mk _ _ _ _) fun e => hr ((isEmpty_iff _).mpr e)]

/-- All of a break but the end of the hold leaves holds and frames (R55, R63). -/
theorem breakHold_sameHolds (reason : BreakReason) (damaged : Option Index) {x : PortId × Token} {h : HeldHold}
    (hh : T.hold x.1 x.2 = .held h) :
    SameHolds (T.breakUnpin reason x.1 x.2 h) (breakHold reason damaged T x) := by
  rw [breakHold_held reason damaged T x h hh]
  exact (sameHolds_closed _).testRecords damaged h ((sameHolds_closed _).raiseBreak reason damaged _ (SameHolds.refl _))

/-- A break that raises PIN_BROKEN, on records that do not drain (R61, R64). -/
theorem breakHold_of_state {reason : BreakReason} (hr : raisesPinBroken reason = true) {x : PortId × Token}
    {h : HeldHold} (hh : T.hold x.1 x.2 = .held h) (hi : (T.entry h.index).state ≠ .draining)
    (hres : (T.entry h.resolved).state ≠ .draining) :
    breakHold reason none T x = (T.breakUnpin reason x.1 x.2 h).raiseRecord h.index .pinBroken := by
  have hstate : ∀ i, (((T.breakUnpin reason x.1 x.2 h).raiseRecord h.index .pinBroken).entry i).state =
      (T.entry i).state := fun i => by
    rw [(State.Core.raiseRecord_fields _ _ _ i).1, breakUnpin_entry]
  rw [breakHold_held reason none T x h hh]
  unfold raiseBreak
  rw [if_pos ⟨hr, fun e => (nomatch e)⟩]
  exact testRecords_of_state none (by rwa [hstate]) (by rwa [hstate])

end Tables

open State in
/-- Settles O47: the break of a hold whose timer expires. -/
theorem holdTimerBreaks : Obligations.HoldTimerBreaks := by
  intro s p k
  refine ⟨fun hnot => ?_, fun h hh => ⟨{ s with tables := s.tables.breakHold .timeout none (p, k) }, rfl,
    fun p' k' => ?_, ?_, fun p' => ?_, ?_, rfl, fun hi hr => ?_⟩⟩
  · show Host.Outcome.next { s with tables := s.tables.breakHold .timeout none (p, k) } = _
    rw [breakHold_not_held s.tables .timeout none (p, k) hnot]
  · show (s.tables.breakHold .timeout none (p, k)).hold p' k' = _
    rw [(breakHold_sameHolds .timeout none (x := (p, k)) hh).hold, breakUnpin_hold, sendsBroken_eq]
  · show (s.tables.breakHold .timeout none (p, k)).fillOrder = _
    rw [(breakHold_sameHolds .timeout none (x := (p, k)) hh).fillOrder, breakUnpin_fillOrder]
  · show (s.tables.breakHold .timeout none (p, k)).queueOf p' = _
    rw [(breakHold_sameHolds .timeout none (x := (p, k)) hh).queueOf, breakUnpin_queueOf]
    simp only [sendsBroken_eq, decide_eq_true_eq]
    by_cases hp : p' = p
    · subst hp
      split_ifs <;> simp_all
    · simp only [hp, false_and, if_false, List.append_nil]
  · show (s.tables.breakHold .timeout none (p, k)).ports = _
    rw [(breakHold_sameHolds .timeout none (x := (p, k)) hh).ports, breakUnpin_rest]
  · have hi' : (s.tables.entry h.index).state ≠ .draining := by rcases hi with hi | hi <;> rw [hi] <;> decide
    have hr' : (s.tables.entry h.resolved).state ≠ .draining := by rcases hr with hr | hr <;> rw [hr] <;> decide
    have hbreak := breakHold_of_state (reason := .timeout) rfl (x := (p, k)) hh hi' hr'
    have hfree : (s.tables.entry h.index).state ≠ .free := by rcases hi with hi | hi <;> rw [hi] <;> decide
    have hfree' : ((s.tables.breakUnpin .timeout p k h).entry h.index).state ≠ .free := by
      rw [breakUnpin_entry]
      exact hfree
    refine ⟨fun i => ?_, ?_⟩
    · show (s.tables.breakHold .timeout none (p, k)).entry i = _
      rw [hbreak, raiseRecord_entries]
      by_cases hii : i = h.index
      · rw [if_pos ⟨hii, hfree'⟩, breakUnpin_entry]
        simp only [hii, ite_isEmpty, true_and, if_true]
        rfl
      · rw [if_neg fun e => hii e.1, breakUnpin_entry]
        simp only [hii, false_and, if_false]
    · dsimp only
      have hnotices := raiseRecord_notices .pinBroken hfree'
      have hraise := raiseRecord_rest (s.tables.breakUnpin .timeout p k h) h.index .pinBroken
      have hreasons : ((s.tables.breakUnpin .timeout p k h).entry h.index).reasons = (s.tables.entry h.index).reasons := by
        rw [breakUnpin_entry]
      rw [hreasons] at hnotices
      rw [hbreak]
      generalize (s.tables.breakUnpin .timeout p k h).raiseRecord h.index .pinBroken = R at hraise hnotices
      rw [hnotices] at hraise
      rw [hraise, breakUnpin_rest]

/-! ## The completion of a DRAINING record (R13) -/

namespace Tables

variable {T : Tables} {i : Index}

theorem completes_iff (e : StatusEntry) :
    completes e = true ↔ e.state = .draining ∧ e.pins = 0 ∧ e.aliases = [] := by
  unfold completes
  simp only [Bool.and_eq_true, decide_eq_true_eq, List.isEmpty_iff, and_assoc]

theorem testDraining_of_completes (h : completes (T.entry i) = true) :
    testDraining none T i = becomeFree none (T.raiseRecord i .drained) i := if_pos ⟨fun e => (nomatch e), h⟩

theorem testRecords_of_direct (skip : Option Index) {h : HeldHold} (hr : h.resolved = h.index) :
    testRecords skip T h = testDraining skip T h.index := if_pos hr

/-- The record completes: DRAINED stands in its reasons, and it is FREE at the next generation. -/
theorem testDraining_self (h : completes (T.entry i) = true) :
    (testDraining none T i).entry i = { StatusEntry.freeAt ((T.entry i).generation + 1) with
      reasons := (T.entry i).reasons.add .drained
      noticeGen := if (T.entry i).reasons = ⟨false, false, false, false⟩ then some (T.entry i).generation
        else (T.entry i).noticeGen } := by
  obtain ⟨hs, -, -⟩ := (completes_iff _).mp h
  have hfree : (T.entry i).state ≠ .free := by rw [hs]; decide
  rw [testDraining_of_completes h, becomeFree_self none (State.Core.ne_zero hfree), raiseRecord_entries,
    if_pos ⟨rfl, hfree⟩, ite_isEmpty]

theorem joinOrPark_parked (h : (T.entry i).reasons.isEmpty = false) : T.joinOrPark i = T := if_neg (by simp [h])

/-- A target that completes owes DRAINED, and does not join the free list. -/
theorem testTarget_freeList (skip : Option Index) (T : Tables) (t : Index) :
    (testTarget skip T t).freeList = T.freeList := by
  unfold testTarget
  split_ifs with hc
  · obtain ⟨hs, -, -⟩ := (completes_iff _).mp hc.2
    have hfree : (T.entry t).state ≠ .free := by rw [hs]; decide
    rw [joinOrPark_parked, makeFree_rest, raiseRecord_rest]
    rw [makeFree_entries _ t t (State.Core.ne_zero hfree), if_pos rfl, raiseRecord_entries, if_pos ⟨rfl, hfree⟩]
    exact isEmpty_add _ _
  · rfl

/-- A record that owes a notice is freed without joining the free list (R17). -/
theorem becomeFree_freeList (skip : Option Index) (hi : i ≠ 0) (h : (T.entry i).reasons.isEmpty = false) :
    (becomeFree skip T i).freeList = T.freeList := by
  have hfreed : (T.freed i).freeList = T.freeList := by rw [freed_rest]
  have hself := becomeFree_self (T := T) skip hi
  rw [becomeFree_eq, joinOrPark_entry] at hself
  rw [becomeFree_eq, joinOrPark_parked (by rw [hself]; exact h)]
  cases (T.entry i).target with
  | none => exact hfreed
  | some t => exact (testTarget_freeList skip (T.freed i) t).trans hfreed

/-- A record that owes a notice and whose target does not drain is freed alone. -/
theorem becomeFree_parked (skip : Option Index) (hi : i ≠ 0) (h : (T.entry i).reasons.isEmpty = false)
    (ht : ∀ t, (T.entry i).target = some t → t ≠ i ∧ (T.entry t).state ≠ .draining) :
    becomeFree skip T i = T.freed i := by
  rw [becomeFree_of_target skip hi ht, joinOrPark_parked]
  rw [freed_entry T i i hi, if_pos rfl]
  exact h

/-- A DRAINING target whose one alias is freed completes with it (R13, R15 step 4). -/
theorem becomeFree_target_completes (hi : i ≠ 0) {t : Index} (ht : (T.entry i).target = some t) (hne : t ≠ i)
    (hs : (T.entry t).state = .draining) (hp : (T.entry t).pins = 0) (ha : (T.entry t).aliases = [i]) :
    ((becomeFree none T i).entry t).state = .free ∧
      ((becomeFree none T i).entry t).generation = (T.entry t).generation + 1 ∧
      ((becomeFree none T i).entry t).reasons.drained = true := by
  have hent : (T.freed i).entry t = { T.entry t with aliases := [] } := by
    rw [freed_entry T i t hi, if_neg hne, if_pos ht, ha]
    simp
  have hfree : ((T.freed i).entry t).state ≠ .free := by rw [hent]; simp [hs]
  have hc : completes ((T.freed i).entry t) = true := by
    rw [hent]
    exact (completes_iff _).mpr ⟨hs, hp, rfl⟩
  have htest : testTarget none (T.freed i) t = (((T.freed i).raiseRecord t .drained).makeFree t).joinOrPark t :=
    if_pos ⟨fun e => (nomatch e), hc⟩
  rw [becomeFree_eq, joinOrPark_entry, ht]
  dsimp only
  rw [htest, joinOrPark_entry, makeFree_entries _ t t (State.Core.ne_zero hfree), if_pos rfl, raiseRecord_entries,
    if_pos ⟨rfl, hfree⟩, hent]
  exact ⟨rfl, rfl, rfl⟩

end Tables

namespace State

theorem exec_drainingCompletion (s : State) (i : Index) :
    exec (.drainingCompletion i) s = .next { s with tables := testDraining none s.tables i } := rfl

theorem countDownOf_domain_eq (T : Tables) (o : Option DomainId) (d : DomainId) :
    (T.countDownOf o).domain d =
      { T.domain d with count := if o = some d then (T.domain d).count - 1 else (T.domain d).count } := by
  rw [countDownOf_domain]
  split <;> rfl

end State

namespace Tables

theorem domain_of_domains {T T' : Tables} (h : T'.domains = T.domains) (d : DomainId) : T'.domain d = T.domain d := by
  unfold domain
  rw [h]

/-- The count of the record's domain falls, and no other domain changes (R122). -/
theorem freed_domain (T : Tables) (i : Index) (d : DomainId) :
    (T.freed i).domain d = { T.domain d with
      count := if (T.entry i).domain = some d then (T.domain d).count - 1 else (T.domain d).count } := by
  have hd : (T.freed i).domains = (T.countDownOf (T.entry i).domain).domains := by rw [freed_rest]
  rw [domain_of_domains hd, State.countDownOf_domain_eq]

theorem raiseRecord_domain (T : Tables) (i : Index) (r : RecReason) (d : DomainId) :
    (T.raiseRecord i r).domain d = T.domain d :=
  domain_of_domains (by rw [raiseRecord_rest]) d

/-- A record freed after a reason was raised on it. -/
theorem freed_raiseRecord_rest (T : Tables) (i : Index) (r : RecReason) :
    (T.raiseRecord i r).freed i = { T with
      rst := ((T.raiseRecord i r).freed i).rst
      domains := ((T.raiseRecord i r).freed i).domains
      notices := (T.raiseRecord i r).notices } := by
  have hfreed := (T.raiseRecord i r).freed_rest i
  have hdomains := congrArg Tables.domains hfreed
  dsimp only at hdomains
  rw [← hdomains] at hfreed
  have hraise := raiseRecord_rest T i r
  generalize (T.raiseRecord i r).freed i = F at hfreed
  generalize T.raiseRecord i r = R at hfreed hraise
  rw [hraise] at hfreed
  exact hfreed

end Tables

open State in
/-- Settles O48: the completion of a DRAINING record, by its command and in the claim that ends its last hold. -/
theorem drainingCompletes : Obligations.DrainingCompletes := by
  refine ⟨fun s i => ⟨fun hnot => ?_, fun e g he hs hp ha hne hg => ?_⟩, fun s p k h e hh hr he hs hp ha ht => ?_⟩
  · have hc : completes (s.tables.entry i) = false := by
      by_contra hc
      obtain ⟨h1, h2, h3⟩ := (completes_iff _).mp (by simpa using hc)
      rcases hnot with hnot | hnot | hnot
      · exact hnot h1
      · omega
      · exact hnot h3
    rw [exec_drainingCompletion, testDraining_of_not _ _ _ hc]
  · subst he
    have hc : completes (s.tables.entry i) = true := (completes_iff _).mpr ⟨hs, hp, ha⟩
    have hfree : (s.tables.entry i).state ≠ .free := by rw [hs]; decide
    have h0 := State.Core.ne_zero hfree
    have hrent : ∀ j, j ≠ i → (s.tables.raiseRecord i .drained).entry j = s.tables.entry j := fun j hj =>
      raiseRecord_entry_ne s.tables i j .drained hj
    have hreasons : ((s.tables.raiseRecord i .drained).entry i).reasons.isEmpty = false := by
      rw [raiseRecord_entries, if_pos ⟨rfl, hfree⟩]
      exact isEmpty_add _ _
    obtain ⟨hrs, -, -, hrt, -⟩ := State.Core.raiseRecord_fields s.tables i .drained i
    have hrdom : ((s.tables.raiseRecord i .drained).entry i).domain = (s.tables.entry i).domain := by
      rw [raiseRecord_entries]
      split <;> rfl
    have hrnot := raiseRecord_notices (T := s.tables) .drained hfree
    have hself := testDraining_self hc
    rw [← hg] at hself
    refine ⟨_, exec_drainingCompletion s i, hself, ?_, ?_, rfl, fun ht => ?_, fun tg ht hts htp hta => ?_⟩
    · show (testDraining none s.tables i).freeList = _
      rw [testDraining_of_completes hc, becomeFree_freeList none h0 hreasons, raiseRecord_rest]
    · exact ((sameHolds_closed s.tables).testDraining none i (SameHolds.refl _)).holds
    · have hfreed : testDraining none s.tables i = (s.tables.raiseRecord i .drained).freed i := by
        rw [testDraining_of_completes hc]
        refine becomeFree_parked none h0 hreasons fun t h => ?_
        rw [hrt] at h
        rw [hrent t (hne t h)]
        exact ⟨hne t h, ht t h⟩
      dsimp only
      rw [hfreed]
      refine ⟨fun j hj => ?_, fun dm => ?_, ?_⟩
      · rw [freed_entry _ i j h0, if_neg hj, hrt, hrent j hj]
        split <;> rfl
      · rw [freed_domain, raiseRecord_domain, hrdom]
      · rw [← hrnot]
        exact freed_raiseRecord_rest s.tables i .drained
    · have hts' := hrent tg (hne tg ht)
      show ((testDraining none s.tables i).entry tg).state = _ ∧ ((testDraining none s.tables i).entry tg).generation = _ ∧
        ((testDraining none s.tables i).entry tg).reasons.drained = _
      rw [testDraining_of_completes hc, ← hts']
      exact becomeFree_target_completes h0 (hrt.trans ht) (hne tg ht) (by rw [hts']; exact hts) (by rw [hts']; exact htp)
        (by rw [hts']; exact hta)
  · subst he
    have hlast : ∀ next, completes ((s.tables.unpin p k h next).entry h.index) = true := fun next => by
      rw [unpin_entry]
      exact (completes_iff _).mpr ⟨hs, by simp [hp], ha⟩
    refine ⟨⟨_, rfl, ?_⟩, fun f hears hport htag htok => ?_⟩
    · have hfree : ((s.tables.breakUnpin .timeout p k h).entry h.index).state ≠ .free := by
        rw [breakUnpin_entry]
        simp [hs]
      have hraise := raiseRecord_entries (s.tables.breakUnpin .timeout p k h) h.index .pinBroken h.index
      rw [if_pos ⟨rfl, hfree⟩, breakUnpin_entry] at hraise
      have hbreak : s.tables.breakHold .timeout none (p, k) =
          testDraining none ((s.tables.breakUnpin .timeout p k h).raiseRecord h.index .pinBroken) h.index := by
        rw [breakHold_held .timeout none s.tables (p, k) h hh, testRecords_of_direct none hr]
        exact congrArg (fun T => testDraining none T h.index) (if_pos ⟨rfl, fun e => (nomatch e)⟩)
      have hself := testDraining_self (T := (s.tables.breakUnpin .timeout p k h).raiseRecord h.index .pinBroken)
        (i := h.index) (by
          rw [hraise]
          exact (completes_iff _).mpr ⟨hs, by simp [hp], ha⟩)
      rw [hraise] at hself
      show ((s.tables.breakHold .timeout none (p, k)).entry h.index).state = _ ∧
        ((s.tables.breakHold .timeout none (p, k)).entry h.index).generation = _ ∧
        ((s.tables.breakHold .timeout none (p, k)).entry h.index).reasons.drained = _ ∧
        ((s.tables.breakHold .timeout none (p, k)).entry h.index).reasons.pinBroken = _
      rw [hbreak, hself]
      exact ⟨rfl, rfl, rfl, rfl⟩
    · refine ⟨_, (exec_release hears hport htag).trans (congrArg _ (takeRelease_of_token htok)), ?_⟩
      rw [releaseEntry_held hh, testRecords_of_direct none hr, hh]
      have hsame := (sameHolds_closed (s.tables.unpin p k h .empty)).testDraining none h.index (SameHolds.refl _)
      have hself := testDraining_self (hlast .empty)
      refine ⟨?_, ?_, ?_⟩
      · show (testDraining none (s.tables.unpin p k h .empty) h.index).hold p k = _
        rw [hsame.hold, unpin_hold, if_pos ⟨rfl, rfl⟩]
      · show (Tables.placeFrame _ p _).queueOf p = _
        rw [queueOf_placeFrame, if_pos rfl, hsame.queueOf, unpin_queueOf]
        rfl
      · show ((testDraining none (s.tables.unpin p k h .empty) h.index).entry h.index).state = _ ∧
          ((testDraining none (s.tables.unpin p k h .empty) h.index).entry h.index).generation = _ ∧
          ((testDraining none (s.tables.unpin p k h .empty) h.index).entry h.index).reasons.drained = _ ∧
          ((testDraining none (s.tables.unpin p k h .empty) h.index).entry h.index).reasons.pinBroken = _
        rw [hself, unpin_entry]
        exact ⟨rfl, rfl, rfl, rfl⟩

end Sys2Proof.Machine
end

section
/-! SUPPORT. The expiry queue in claims on records, the expiry of a record and the epoch tick (R99, R103, R104). -/

namespace Sys2Proof.Machine

open Tables

namespace State

/-! ## What a claim leaves of the expiry queue -/

/-- From `T` to `T'` entries leave the expiry queue, none of them of a record that the claim is not about. -/
structure QueueSteady (A : Index → Prop) (T T' : Tables) : Prop where
  sublist : T'.expiryQueue.Sublist T.expiryQueue
  stays : ∀ x ∈ T.expiryQueue, ¬ A x.2 → x ∈ T'.expiryQueue

namespace QueueSteady

variable {A : Index → Prop} {T T' T'' : Tables}

theorem of_eq (h : T'.expiryQueue = T.expiryQueue) : QueueSteady A T T' :=
  ⟨h ▸ List.Sublist.refl _, fun _ hx _ => h ▸ hx⟩

theorem trans (h : QueueSteady A T T') (h' : QueueSteady A T' T'') : QueueSteady A T T'' :=
  ⟨h'.sublist.trans h.sublist, fun x hx hA => h'.stays x (h.stays x hx hA) hA⟩

theorem leaveQueue {i : Index} (hi : A i) : QueueSteady A T (T.leaveQueue i) := by
  have hq : (T.leaveQueue i).expiryQueue = T.expiryQueue.filter fun x => x.2 != i := by rw [leaveQueue_rest]
  refine ⟨hq ▸ List.filter_sublist, fun x hx hA => hq ▸ List.mem_filter.mpr ⟨hx, bne_iff_ne.mpr ?_⟩⟩
  rintro rfl
  exact hA hi

theorem raiseRecord (i : Index) (r : RecReason) : QueueSteady A T (T.raiseRecord i r) :=
  of_eq (by rw [raiseRecord_rest])

theorem becomeFree (skip : Option Index) (i : Index) : QueueSteady A T (becomeFree skip T i) :=
  of_eq (becomeFree_expiryQueue skip i)

theorem testDraining (skip : Option Index) (i : Index) : QueueSteady A T (testDraining skip T i) := by
  unfold Tables.testDraining
  split_ifs
  · exact (raiseRecord i .drained).trans (becomeFree skip i)
  · exact of_eq rfl

theorem testRecords (skip : Option Index) (y : HeldHold) : QueueSteady A T (testRecords skip T y) := by
  unfold Tables.testRecords
  dsimp only
  split_ifs
  · exact testDraining skip _
  · exact (testDraining skip _).trans (testDraining skip _)

theorem breakHold (reason : BreakReason) (damaged : Option Index) (x : PortId × Token) :
    QueueSteady A T (breakHold reason damaged T x) := by
  by_cases hx : ∃ y, T.hold x.1 x.2 = .held y
  · obtain ⟨y, hy⟩ := hx
    rw [breakHold_held reason damaged T x y hy]
    have hunpin : QueueSteady A T (T.breakUnpin reason x.1 x.2 y) := of_eq (by rw [breakUnpin_rest])
    refine (hunpin.trans ?_).trans (testRecords damaged y)
    unfold Tables.raiseBreak
    split_ifs
    · exact raiseRecord _ _
    · exact of_eq rfl
  · rw [breakHold_not_held T reason damaged x fun y hy => hx ⟨y, hy⟩]
    exact of_eq rfl

theorem breakAll (reason : BreakReason) (damaged : Option Index) (xs : List (PortId × Token)) :
    QueueSteady A T (T.breakAll reason damaged xs) := by
  unfold Tables.breakAll
  induction xs generalizing T with
  | nil => exact of_eq rfl
  | cons x xs ih => exact (breakHold reason damaged x).trans ih

theorem retireSelf (brk : Bool) {i : Index} (hi : A i) : QueueSteady A T (T.retireSelf brk i) := by
  rw [retireSelf_brokenFor]
  have hbroken : QueueSteady A T (brokenFor brk T i) := by
    unfold brokenFor
    split
    · exact breakAll _ _ _
    · exact of_eq rfl
  refine (hbroken.trans (leaveQueue hi)).trans ?_
  unfold Tables.finishRetire
  dsimp only
  split_ifs
  · exact becomeFree none i
  · exact of_eq (by rw [modEntry_rest])

theorem cascadeVisits (brk : Bool) (l : List Index) (hl : ∀ a ∈ l, A a) :
    QueueSteady A T (l.foldl (Tables.cascadeVisit brk) T) := by
  induction l generalizing T with
  | nil => exact of_eq rfl
  | cons a l ih =>
    refine QueueSteady.trans ?_ (ih fun x hx => hl x (List.mem_cons_of_mem _ hx))
    unfold Tables.cascadeVisit
    split_ifs
    · exact retireSelf brk (hl a List.mem_cons_self)
    · exact of_eq rfl

theorem retire (casc brk : Bool) {i : Index} (hi : A i) (hal : ∀ a ∈ (T.entry i).aliases, A a) :
    QueueSteady A T (T.retire casc brk i) := by
  have hcasc : QueueSteady A T (cascaded casc brk T i) := by
    unfold cascaded
    split
    · exact cascadeVisits brk _ hal
    · exact of_eq rfl
  exact (hcasc.trans (retireSelf brk hi)).trans (of_eq (retire_expiryQueue casc brk T i))

end QueueSteady

/-! ## The expiry of a record (R104) -/

section Expire

variable (T : Tables) (i : Index)

theorem expire_reasons (h : (T.entry i).state ≠ .free) : ((T.expire i).entry i).reasons.expired = true := by
  have hsteady : Steady (fun _ => True) (T.raiseRecord i .expired) (T.expire i) :=
    Steady.retire true false trivial fun _ _ => trivial
  refine (hsteady i).reasons.expired ?_
  rw [raiseRecord_entries, if_pos ⟨rfl, h⟩]
  rfl

/-- What is read of the records before EXPIRED was raised. -/
theorem retires_expire (h : retirable (T.entry i).state = true) :
    ((T.expire i).entry i).state = .free ∨ ((T.expire i).entry i).state = .draining := by
  have hr : retirable ((T.raiseRecord i .expired).entry i).state = true := by
    rw [(Core.raiseRecord_fields T i .expired i).1]
    exact h
  obtain ⟨hended, -⟩ := retires_retire true false hr
  exact hended

theorem expire_aliases {a : Index} (h : retirable (T.entry i).state = true) (ha : a ∈ (T.entry i).aliases)
    (hs : retirable (T.entry a).state = true) :
    ((T.expire i).entry a).state = .free ∨ ((T.expire i).entry a).state = .draining := by
  obtain ⟨hi, -, hal, -⟩ := Core.raiseRecord_fields T i .expired i
  have hstate := (Core.raiseRecord_fields T i .expired a).1
  obtain ⟨-, -, -, -, hended, -⟩ := retires_retire (T := T.raiseRecord i .expired) true false (i := i) (hi ▸ h)
  exact hended rfl a (hal ▸ ha) (by rw [hstate]; exact (retirable_iff _).mp hs)

theorem expire_sameHolds : SameHolds T (T.expire i) := (sameHolds_closed T).expire i (SameHolds.refl T)

theorem expire_steady : Steady (fun j => j = i ∨ j ∈ (T.entry i).aliases) T (T.expire i) := by
  have hal := (Core.raiseRecord_fields T i .expired i).2.2.1
  exact (Steady.raiseRecord i .expired).trans (Steady.retire true false (Or.inl rfl) fun a ha => Or.inr (hal ▸ ha))

theorem expire_queueSteady : QueueSteady (fun j => j = i ∨ j ∈ (T.entry i).aliases) T (T.expire i) := by
  have hal := (Core.raiseRecord_fields T i .expired i).2.2.1
  exact (QueueSteady.raiseRecord i .expired).trans
    (QueueSteady.retire true false (Or.inl rfl) fun a ha => Or.inr (hal ▸ ha))

theorem expire_not_due : ∀ x ∈ (T.expire i).expiryQueue, x.2 ≠ i := by
  unfold Tables.expire
  rw [retire_expiryQueue]
  exact finishRetire_not_due i

end Expire

end State

open State in
/-- Settles O46: the expiry of the head of the expiry queue. -/
theorem recordExpiryRetires : Obligations.RecordExpiryRetires := by
  intro s
  refine ⟨fun hnot => ?_, fun d i rest e g hpass hq hd he hs hg => ?_⟩
  · show Host.Outcome.next s.expireDue = _
    unfold State.expireDue
    rw [if_neg]
    rintro ⟨hpass, hdue⟩
    unfold State.headDue at hdue
    rcases hnot with hnot | hnot
    · rw [hnot] at hpass
      cases hpass
    · split at hdue
      · rename_i d i rest hq
        exact BitVec.not_le.mpr (hnot d i rest hq) (of_decide_eq_true hdue)
      · cases hdue
  · have hdue : s.headDue = true := by
      unfold State.headDue
      rw [hq]
      exact decide_eq_true hd
    subst he
    have hexec : exec .recordExpiry s = .next { s with tables := s.tables.expire i } := by
      show Host.Outcome.next s.expireDue = _
      unfold State.expireDue State.expireHead
      rw [if_pos ⟨hpass, hdue⟩, hq]
      dsimp only
      rw [if_pos hs]
      rfl
    have hr : retirable (s.tables.entry i).state = true := by rcases hs with hs | hs <;> rw [hs] <;> rfl
    have hfree : (s.tables.entry i).state ≠ .free := by rcases hs with hs | hs <;> rw [hs] <;> decide
    have h0 := State.Core.ne_zero hfree
    have hsame := expire_sameHolds s.tables i
    have hself := raiseRecord_entries s.tables i .expired i
    rw [if_pos ⟨rfl, hfree⟩, ite_isEmpty, ← hg] at hself
    have hother : ∀ j, j ≠ i → (s.tables.raiseRecord i .expired).entry j = s.tables.entry j := fun j hj =>
      raiseRecord_entry_ne s.tables i j .expired hj
    have hnotices := raiseRecord_notices (T := s.tables) .expired hfree
    have hrest := raiseRecord_rest s.tables i .expired
    have hend : (s.tables.entry i).aliases = [] →
        s.tables.expire i = (s.tables.raiseRecord i .expired).finishRetire i := fun ha =>
      retire_of_no_alias true (by rw [hself]; exact ha)
    refine ⟨_, hexec, retires_expire s.tables i hr, expire_reasons s.tables i hfree, expire_not_due s.tables i,
      fun a ha hsa => expire_aliases s.tables i hr ha ((retirable_iff _).mpr hsa), hsame.holds, hsame.outbound, rfl,
      fun ha hp => ?_, fun ha hp ht => ?_⟩
    · have hnot : ¬ (((s.tables.raiseRecord i .expired).entry i).pins = 0 ∧
          ((s.tables.raiseRecord i .expired).entry i).aliases = []) := by
        rw [hself]
        exact fun h => Nat.ne_of_gt hp h.1
      have hent := finishRetire_pinned_entry h0 hnot
      have hfin := finishRetire_pinned_rest hnot
      dsimp only
      rw [hend ha]
      refine ⟨?_, fun j hj => ?_, ?_⟩
      · rw [hent, if_pos rfl, hself]
        rfl
      · rw [hent, if_neg hj, hother j hj]
      · rw [← hnotices]
        generalize (s.tables.raiseRecord i .expired).finishRetire i = F at hfin
        generalize s.tables.raiseRecord i .expired = R at hfin hrest
        rw [hrest] at hfin
        exact hfin
    · have ht' : ∀ t, ((s.tables.raiseRecord i .expired).entry i).target = some t →
          t ≠ i ∧ ((s.tables.raiseRecord i .expired).entry t).state ≠ .draining := by
        intro t h
        rw [hself] at h
        obtain ⟨hne, hst⟩ := ht t h
        rw [hother t hne]
        exact ⟨hne, hst⟩
      have hp' : ((s.tables.raiseRecord i .expired).entry i).pins = 0 := by rw [hself]; exact hp
      have ha' : ((s.tables.raiseRecord i .expired).entry i).aliases = [] := by rw [hself]; exact ha
      have hfin := finishRetire_freed_rest h0 hp' ha' ht'
      have hdom : ∀ dm, ((s.tables.raiseRecord i .expired).finishRetire i).domain dm =
          { (s.tables.raiseRecord i .expired).domain dm with
            count := if ((s.tables.raiseRecord i .expired).entry i).domain = some dm then
                ((s.tables.raiseRecord i .expired).domain dm).count - 1
              else ((s.tables.raiseRecord i .expired).domain dm).count } := fun dm => by
        rw [← countDownOf_domain_eq]
        exact domain_of_domains (congrArg Tables.domains hfin) dm
      dsimp only
      rw [hend ha]
      refine ⟨?_, fun j hj => ?_, fun dm => ?_, ?_⟩
      · rw [finishRetire_self h0, if_pos ⟨hp', ha'⟩, hself]
        rfl
      · rw [finishRetire_freed_entry h0 hp' ha' ht' hj, hself, hother j hj]
        dsimp only
        split <;> rfl
      · rw [hdom, raiseRecord_domain, hself]
      · rw [← hnotices]
        have hadd : ¬ ((s.tables.raiseRecord i .expired).entry i).reasons = ⟨false, false, false, false⟩ := fun e => by
          rw [hself] at e
          have := isEmpty_add (s.tables.entry i).reasons .expired
          rw [(isEmpty_iff _).mpr e] at this
          cases this
        rw [if_neg hadd] at hfin
        have hdomains := congrArg Tables.domains hfin
        dsimp only at hdomains
        rw [← hdomains] at hfin
        generalize (s.tables.raiseRecord i .expired).finishRetire i = F at hfin
        generalize s.tables.raiseRecord i .expired = R at hfin hrest
        rw [hrest] at hfin
        exact hfin

end Sys2Proof.Machine
end

section
/-! SUPPORT. The epoch tick (R97, R98, R103). -/

namespace Sys2Proof.Machine

open Tables

namespace State

variable {s : State}

theorem toNat_nextEpoch (e : Epoch) : (nextEpoch e).toNat = min (e.toNat + 1) (2 ^ 48 - 1) := by
  unfold nextEpoch
  split_ifs with he
  · subst he
    decide
  · have hne : e.toNat ≠ 2 ^ 48 - 1 := fun h => he (BitVec.eq_of_toNat_eq (by rw [h]; rfl))
    have hlt := e.isLt
    rw [BitVec.toNat_add, show (1 : Epoch).toNat = 1 from rfl]
    omega

/-! ## One expiry of the pass (R103 step 2, R104) -/

/-- The step on the tables at a head record: expired where it is LIVE or SUSPENDED, and out of the queue. -/
def expireOne (T : Tables) (i : Index) : Tables :=
  if (T.entry i).state = .live ∨ (T.entry i).state = .suspended then T.expire i else T.leaveQueue i

theorem headDue_iff : s.headDue = true ↔ ∃ d i rest, s.tables.expiryQueue = (d, i) :: rest ∧ d ≤ s.epoch := by
  unfold headDue
  cases h : s.tables.expiryQueue with
  | nil => simp
  | cons x rest =>
    obtain ⟨d, i⟩ := x
    simp

theorem expireDue_of_due {d : Epoch} {i : Index} {rest : List (Epoch × Index)} (hp : s.expiryPass = true)
    (hq : s.tables.expiryQueue = (d, i) :: rest) (hd : d ≤ s.epoch) :
    s.expireDue = { s with tables := expireOne s.tables i } := by
  unfold expireDue expireHead expireOne
  rw [if_pos ⟨hp, headDue_iff.mpr ⟨d, i, rest, hq, hd⟩⟩, hq]
  dsimp only
  split <;> rfl

theorem expireDue_of_not_due (h : s.headDue = false) : s.expireDue = s :=
  if_neg fun hd => by rw [h] at hd; cases hd.2

theorem expireOne_sameHolds (T : Tables) (i : Index) : SameHolds T (expireOne T i) := by
  unfold expireOne
  split
  · exact expire_sameHolds T i
  · exact (sameHolds_closed T).leaveQueue i (SameHolds.refl T)

theorem expireOne_queue (T : Tables) (i : Index) :
    (expireOne T i).expiryQueue.Sublist T.expiryQueue ∧ ∀ x ∈ (expireOne T i).expiryQueue, x.2 ≠ i := by
  unfold expireOne
  split
  · exact ⟨(expire_queueSteady T i).sublist, expire_not_due T i⟩
  · exact ⟨(QueueSteady.leaveQueue (A := fun _ => True) trivial).sublist, leaveQueue_not_mem T i⟩

theorem expireOne_steady (T : Tables) (i : Index) : Steady (fun _ => True) T (expireOne T i) := by
  unfold expireOne
  split
  · exact (expire_steady T i).weaken fun _ _ => trivial
  · exact Steady.leaveQueue trivial

theorem expireOne_length {T : Tables} {d : Epoch} {i : Index} {rest : List (Epoch × Index)}
    (h : T.expiryQueue = (d, i) :: rest) : (expireOne T i).expiryQueue.length < T.expiryQueue.length := by
  obtain ⟨hsub, hnot⟩ := expireOne_queue T i
  refine Nat.lt_of_le_of_ne hsub.length_le fun hl => ?_
  have heq := hsub.eq_of_length hl
  rw [h] at heq
  exact hnot (d, i) (heq ▸ List.mem_cons_self) rfl

/-- An entry of a LIVE or SUSPENDED record either stays in the queue with it, or the record has ended; and where it is
not an alias of the record expired, it has been expired itself. -/
theorem expireOne_entry (T : Tables) (i : Index) {d : Epoch} {j : Index} (hj : (d, j) ∈ T.expiryQueue)
    (hs : (T.entry j).state = .live ∨ (T.entry j).state = .suspended) :
    ((d, j) ∈ (expireOne T i).expiryQueue ∧
        (((expireOne T i).entry j).state = .live ∨ ((expireOne T i).entry j).state = .suspended)) ∨
      ((((expireOne T i).entry j).state = .free ∨ ((expireOne T i).entry j).state = .draining) ∧
        (j ∉ (T.entry i).aliases → ((expireOne T i).entry j).reasons.expired = true)) := by
  have hr : retirable (T.entry j).state = true := by rcases hs with hs | hs <;> rw [hs] <;> rfl
  have hdrain : (T.entry j).state ≠ .draining := by rcases hs with hs | hs <;> rw [hs] <;> decide
  have hfree : (T.entry j).state ≠ .free := by rcases hs with hs | hs <;> rw [hs] <;> decide
  by_cases hi : (T.entry i).state = .live ∨ (T.entry i).state = .suspended
  · have hri : retirable (T.entry i).state = true := by rcases hi with hi | hi <;> rw [hi] <;> rfl
    have hone : expireOne T i = T.expire i := if_pos hi
    rw [hone]
    by_cases hji : j = i
    · subst hji
      exact Or.inr ⟨retires_expire T j hr, fun _ => expire_reasons T j hfree⟩
    · by_cases ha : j ∈ (T.entry i).aliases
      · exact Or.inr ⟨expire_aliases T i hri ha hr, fun hn => absurd ha hn⟩
      · have hA : ¬ (j = i ∨ j ∈ (T.entry i).aliases) := fun h => h.elim hji ha
        obtain ⟨hstate, -⟩ := (expire_steady T i).sameLife hA hdrain
        exact Or.inl ⟨(expire_queueSteady T i).stays _ hj hA, by rw [hstate]; exact hs⟩
  · have hone : expireOne T i = T.leaveQueue i := if_neg hi
    have hji : j ≠ i := by
      rintro rfl
      exact hi hs
    rw [hone]
    refine Or.inl ⟨(QueueSteady.leaveQueue (A := fun k => k = i) rfl).stays _ hj hji, ?_⟩
    rw [leaveQueue_entry, if_neg hji]
    exact hs

/-! ## The pass -/

theorem expireDue_tables_rel (R : Tables → Tables → Prop) (hrefl : ∀ T, R T T) (hone : ∀ T i, R T (expireOne T i)) :
    R s.tables s.expireDue.tables := by
  by_cases hp : s.expiryPass = true ∧ s.headDue = true
  · obtain ⟨d, i, rest, hq, hd⟩ := headDue_iff.mp hp.2
    rw [expireDue_of_due hp.1 hq hd]
    exact hone s.tables i
  · have : s.expireDue = s := if_neg hp
    rw [this]
    exact hrefl _

theorem expiryPassSteps_tables_rel (R : Tables → Tables → Prop) (hrefl : ∀ T, R T T)
    (htrans : ∀ T T' T'', R T T' → R T' T'' → R T T'') (hone : ∀ T i, R T (expireOne T i)) (n : Nat) (s : State) :
    R s.tables (expiryPassSteps n s).tables := by
  induction n generalizing s with
  | zero => exact hrefl _
  | succ n ih => exact htrans _ _ _ (expireDue_tables_rel R hrefl hone) (ih _)

theorem expiryPassSteps_sameHolds (n : Nat) (s : State) : SameHolds s.tables (expiryPassSteps n s).tables :=
  expiryPassSteps_tables_rel SameHolds SameHolds.refl
    (fun _ _ _ h h' => ⟨h'.1.trans h.1, h'.2.trans h.2, h'.3.trans h.3, h'.4.trans h.4, h'.5.trans h.5, h'.6.trans h.6,
      h'.7.trans h.7⟩) expireOne_sameHolds n s

theorem expiryPassSteps_sublist (n : Nat) (s : State) :
    (expiryPassSteps n s).tables.expiryQueue.Sublist s.tables.expiryQueue :=
  expiryPassSteps_tables_rel (fun T T' => T'.expiryQueue.Sublist T.expiryQueue) (fun _ => List.Sublist.refl _)
    (fun _ _ _ h h' => h'.trans h) (fun T i => (expireOne_queue T i).1) n s

theorem expiryPassSteps_of_not_due (n : Nat) (h : s.headDue = false) : expiryPassSteps n s = s := by
  induction n with
  | zero => rfl
  | succ n ih => rw [expiryPassSteps, expireDue_of_not_due h, ih]

/-- Steps of the pass for every entry of the queue leave no due head (R103). -/
theorem headDue_expiryPassSteps (n : Nat) (s : State) (hp : s.expiryPass = true)
    (hn : s.tables.expiryQueue.length ≤ n) : (expiryPassSteps n s).headDue = false := by
  induction n generalizing s with
  | zero =>
    have hnil := List.length_eq_zero_iff.mp (Nat.le_zero.mp hn)
    unfold expiryPassSteps headDue
    rw [hnil]
  | succ n ih =>
    cases hd : s.headDue with
    | false =>
      rw [expiryPassSteps_of_not_due _ hd]
      exact hd
    | true =>
      obtain ⟨d, i, rest, hq, hle⟩ := headDue_iff.mp hd
      have hlen := expireOne_length hq
      rw [expiryPassSteps, expireDue_of_due hp hq hle]
      exact ih _ hp (by dsimp only; omega)

/-- An entry of a LIVE or SUSPENDED record stays in the queue with it through the pass, or the record ends; and where
it is not an alias of a due record, it has been expired itself. -/
theorem expiryPassSteps_entry (n : Nat) (s : State) {d : Epoch} {j : Index} (hj : (d, j) ∈ s.tables.expiryQueue)
    (hs : (s.tables.entry j).state = .live ∨ (s.tables.entry j).state = .suspended) :
    (d, j) ∈ (expiryPassSteps n s).tables.expiryQueue ∨
      ((((expiryPassSteps n s).tables.entry j).state = .free ∨ ((expiryPassSteps n s).tables.entry j).state = .draining) ∧
        ((∀ d' i, (d', i) ∈ s.tables.expiryQueue → d' ≤ s.epoch → j ∉ (s.tables.entry i).aliases) →
          ((expiryPassSteps n s).tables.entry j).reasons.expired = true)) := by
  induction n generalizing s with
  | zero => exact Or.inl hj
  | succ n ih =>
    by_cases hp : s.expiryPass = true ∧ s.headDue = true
    · obtain ⟨c, i, rest, hq, hc⟩ := headDue_iff.mp hp.2
      rw [expiryPassSteps, expireDue_of_due hp.1 hq hc]
      obtain ⟨hsub, -⟩ := expireOne_queue s.tables i
      rcases expireOne_entry s.tables i hj hs with ⟨hj', hs'⟩ | ⟨hended, hexp⟩
      · refine (ih { s with tables := expireOne s.tables i } hj' hs').imp_right fun ⟨h1, h2⟩ => ⟨h1, fun hal => h2 ?_⟩
        exact fun d' k hk hd' hjk => hal d' k (hsub.subset hk) hd' ((expireOne_steady s.tables i k).aliases.subset hjk)
      · have hrest : Steady (fun _ => True) (expireOne s.tables i)
            (expiryPassSteps n { s with tables := expireOne s.tables i }).tables :=
          expiryPassSteps_tables_rel (Steady fun _ => True) Steady.refl (fun _ _ _ h h' => h.trans h') expireOne_steady n
            { s with tables := expireOne s.tables i }
        refine Or.inr ⟨(hrest j).ended hended, fun hal => (hrest j).reasons.expired (hexp ?_)⟩
        exact hal c i (hq ▸ List.mem_cons_self) hc
    · have : s.expireDue = s := if_neg hp
      rw [expiryPassSteps, this]
      exact ih s hj hs

/-- The tick, while the tick timer runs. -/
theorem exec_epochTick (h : s.tickInterval ≠ none) :
    exec .epochTick s = .next { expiryPassSteps s.tables.expiryQueue.length s.advanceEpoch with expiryPass := false } := by
  obtain ⟨x, hx⟩ := Option.ne_none_iff_exists'.mp h
  show Host.Outcome.next s.epochTick = _
  unfold epochTick
  simp only [hx]
  rfl

end State

open State in
/-- Settles O45: the epoch advances, and the pass retires every due record. -/
theorem epochTickAdvances : Obligations.EpochTickAdvances := by
  intro s
  refine ⟨fun h => ?_, fun h => ?_⟩
  · show Host.Outcome.next s.epochTick = _
    unfold State.epochTick
    simp only [h]
  · have hsublist := expiryPassSteps_sublist s.tables.expiryQueue.length s.advanceEpoch
    have hsame := expiryPassSteps_sameHolds s.tables.expiryQueue.length s.advanceEpoch
    have hdue := headDue_expiryPassSteps s.tables.expiryQueue.length s.advanceEpoch rfl (Nat.le_refl _)
    have hrest := expiryPassSteps_rest s.tables.expiryQueue.length s.advanceEpoch
    have hentry := fun d j hj => expiryPassSteps_entry s.tables.expiryQueue.length s.advanceEpoch (d := d) (j := j) hj
    have hnone := expiryPassSteps_of_not_due s.tables.expiryQueue.length (s := s.advanceEpoch)
    have hexec := exec_epochTick h
    generalize expiryPassSteps s.tables.expiryQueue.length s.advanceEpoch = t at *
    have hepoch : t.epoch = nextEpoch s.epoch := by rw [hrest]; rfl
    have hhead : ∀ d i rest, t.tables.expiryQueue = (d, i) :: rest → t.epoch < d := by
      intro d i rest hq
      by_contra hlt
      rw [headDue_iff.mpr ⟨d, i, rest, hq, BitVec.not_lt.mp hlt⟩] at hdue
      cases hdue
    have hall : (s.tables.expiryQueue.map Prod.fst).Pairwise (· ≤ ·) → ∀ x ∈ t.tables.expiryQueue, t.epoch < x.1 := by
      intro hsorted x hx
      have hpair := hsorted.sublist (hsublist.map Prod.fst)
      cases hq : t.tables.expiryQueue with
      | nil => rw [hq] at hx; exact absurd hx List.not_mem_nil
      | cons y rest =>
        rw [hq] at hx hpair
        have hy := hhead y.1 y.2 rest hq
        rcases List.mem_cons.mp hx with rfl | hx
        · exact hy
        · rw [List.map_cons, List.pairwise_cons] at hpair
          exact BitVec.lt_def.mpr (Nat.lt_of_lt_of_le (BitVec.lt_def.mp hy)
            (BitVec.le_def.mp (hpair.1 x.1 (List.mem_map_of_mem hx))))
    refine ⟨_, hexec, ?_, hhead, hall, fun hsorted d i hi hd hs => ?_, fun hlate => ?_, hsublist, hsame.holds,
      hsame.fillOrder, hsame.ports, hsame.outbound, hsame.portNotices, hsame.domainClosed, hsame.bankLoss, ?_⟩
    · show t.epoch.toNat = _
      rw [hepoch, toNat_nextEpoch]
    · have hout : (d, i) ∉ t.tables.expiryQueue := fun hm => BitVec.not_le.mpr (hall hsorted _ hm) hd
      obtain ⟨hended, hexpired⟩ := (hentry d i hi hs).resolve_left hout
      refine ⟨hended, fun hal => hexpired ?_⟩
      have hd' : s.advanceEpoch.epoch = t.epoch := hepoch.symm
      rw [hd']
      exact hal
    · have hnot : s.advanceEpoch.headDue = false := by
        by_contra hc
        obtain ⟨d, i, rest, hq, hd⟩ := headDue_iff.mp (by simpa using hc)
        have hlt := hlate (d, i) (show (d, i) ∈ s.tables.expiryQueue from hq ▸ List.mem_cons_self)
        exact BitVec.not_le.mpr hlt (hepoch ▸ hd)
      show t.tables = s.tables
      rw [hnone hnot]
      rfl
    · show { t with expiryPass := false } = _
      rw [hrest]
      rfl

end Sys2Proof.Machine
end

section
/-! SUPPORT. A body written, and an AMEND at its decision (R65, R85, R86). -/

namespace Sys2Proof.Machine

open Tables

/-! ## A body written (R148) -/

namespace State

variable {s : State}

/-- A cell written reads back, and no other position changes. -/
theorem cellAt_writeCell (s : State) (i j : Index) (c : Cell) :
    (s.writeCell i c).cellAt j = if j = i then c else s.cellAt j := by
  have hval : ∀ t : List (Nat × Cell), Table.get s.blankCell (Table.put s.blankCell t i.val c) j.val =
      if j = i then c else Table.get s.blankCell t j.val := fun t => by
    rw [Table.get_put]
    simp only [Fin.ext_iff]
  have hstorage : ∀ op, (s.bank (bankOf i)).openPage = op → (∀ o, op = some o → o.page ≠ pageOf i) →
      (s.writeStorage i c).cellAt j = if j = i then c else s.cellAt j := by
    intro op hop hpage
    have hbank : (s.writeStorage i c).bank (bankOf j) = s.bank (bankOf j) := rfl
    cases hj : (s.bank (bankOf j)).openPage with
    | none =>
      rw [cellAt_of_closed _ j (hbank ▸ hj), cellAt_of_closed s j hj]
      exact hval s.storage
    | some o =>
      rw [cellAt_of_open _ j o (hbank ▸ hj), cellAt_of_open s j o hj]
      by_cases hp : o.page = pageOf j
      · have hji : j ≠ i := by
          rintro rfl
          exact hpage o (hop.symm.trans hj) hp
        rw [if_pos hp, if_pos hp, if_neg hji]
        rfl
      · rw [if_neg hp, if_neg hp]
        exact hval s.storage
  unfold writeCell
  split
  · rename_i op hop
    split
    · rename_i hpage
      unfold cellAt
      rw [bank_setBank]
      by_cases hb : bankOf j = bankOf i
      · rw [if_pos hb, hb, hop]
        dsimp only
        change (if op.page = pageOf j then Table.get s.blankCell (Table.put s.blankCell op.cells i.val c) j.val
          else Table.get s.blankCell s.storage j.val) = _
        rw [hval]
        by_cases hj : j = i
        · subst hj
          simp [hpage]
        · simp [hj]
      · have hj : j ≠ i := by
          rintro rfl
          exact hb rfl
        rw [if_neg hb, if_neg hj]
        rfl
    · rename_i hpage
      exact hstorage _ hop fun o ho => by
        cases ho
        exact hpage
  · rename_i hop
    exact hstorage _ hop fun o ho => (nomatch ho)

/-- A body written leaves every clean page buffer in agreement with storage. -/
theorem pagesClean_writeCell (h : s.PagesClean) (i : Index) (c : Cell) : (s.writeCell i c).PagesClean := by
  have hstorage : ∀ op, (s.bank (bankOf i)).openPage = op → (∀ o, op = some o → o.page ≠ pageOf i) →
      (s.writeStorage i c).PagesClean := by
    intro op hop hpage b o ho hd j hj
    have hne : j.val ≠ i.val := by
      intro e
      obtain ⟨hb, hp⟩ := (mem_pageIndices b o.page j).mp hj
      rw [Fin.ext e] at hb hp
      subst hb
      exact hpage o (hop.symm.trans ho) hp.symm
    change _ = Table.get s.blankCell (Table.put s.blankCell s.storage i.val c) j.val
    rw [Table.get_put_ne _ _ _ _ _ hne]
    exact h b o ho hd j hj
  unfold writeCell
  split
  · rename_i op hop
    split
    · intro b o ho hd
      rw [bank_setBank] at ho
      split at ho
      · cases ho
        cases hd
      · exact h b o ho hd
    · rename_i hpage
      exact hstorage _ hop fun o ho => by
        cases ho
        exact hpage
  · rename_i hop
    exact hstorage _ hop fun o ho => (nomatch ho)

/-! ## The holds in conflict with a new body (R65) -/

theorem conflictsAlone_iff (i : Index) (b : Body) (h : HeldHold) :
    conflictsAlone i b h = true ↔ b.rights.has h.access = false ∨
      (h.index = i ∧ (h.clearance < b.floor ∨ b.extent.toNat < h.offset.toNat + h.length.toNat)) := by
  unfold conflictsAlone
  simp

theorem keepable_iff (T : Tables) (i : Index) (b : Body) (x : PortId × Token) :
    keepable T i b x = true ↔ writesUnder T i b x := by
  unfold keepable writesUnder
  cases T.hold x.1 x.2 with
  | held h =>
    have halone : conflictsAlone i b h = false ↔ ¬ (b.rights.has h.access = false ∨ (h.index = i ∧
        (h.clearance < b.floor ∨ b.extent.toNat < h.offset.toNat + h.length.toNat))) := by
      rw [← conflictsAlone_iff, Bool.not_eq_true]
    simp only [Bool.and_eq_true, Bool.not_eq_true', beq_iff_eq, decide_eq_true_eq, HoldEntry.held.injEq, halone]
    constructor
    · rintro ⟨⟨hr, hw⟩, hc⟩
      rw [not_or, not_and, not_or, Bool.not_eq_false, hw] at hc
      obtain ⟨hrights, hbounds⟩ := hc
      exact ⟨h, rfl, hr, hw, hrights, fun e => (hbounds e).imp Fin.not_lt.mp Nat.not_lt.mp⟩
    · rintro ⟨h', rfl, hr, hw, hrights, hbounds⟩
      refine ⟨⟨hr, hw⟩, ?_⟩
      rw [not_or, not_and, not_or, hw, hrights]
      exact ⟨fun e => (nomatch e), fun e => (hbounds e).imp Fin.not_lt.mpr Nat.not_lt.mpr⟩
  | _ => simp

theorem keptWriter_eq_some_iff (T : Tables) (i : Index) (b : Body) (x : PortId × Token) :
    keptWriter T i b = some x ↔ oldestWriter T i b x := by
  unfold keptWriter oldestWriter
  rw [List.find?_eq_some_iff_append, keepable_iff]
  simp only [Bool.not_eq_true', ← Bool.not_eq_true, keepable_iff]

theorem keptWriter_eq_none_iff (T : Tables) (i : Index) (b : Body) :
    keptWriter T i b = none ↔ ∀ x, ¬ oldestWriter T i b x := by
  simp only [Option.eq_none_iff_forall_ne_some, ne_eq, keptWriter_eq_some_iff]

theorem conflicts_iff (T : Tables) (i : Index) (b : Body) (p : PortId) (t : Token) (h : HeldHold) :
    conflicts T i b p t h = true ↔ (h.index = i ∨ h.resolved = i) ∧
      (conflictsAlone i b h = true ∨ (b.sharing = .sole ∧ h.access = .write ∧ ¬ oldestWriter T i b (p, t))) := by
  unfold conflicts restsOn
  simp only [Bool.and_eq_true, Bool.or_eq_true, beq_iff_eq, decide_eq_true_eq, ne_eq, keptWriter_eq_some_iff, and_assoc]

theorem mem_conflictingHolds (T : Tables) (i : Index) (b : Body) (p : PortId) (t : Token) :
    (p, t) ∈ conflictingHolds T i b ↔ ∃ h, T.hold p t = .held h ∧ conflicts T i b p t h = true :=
  mem_heldWhere T (conflicts T i b) (p, t)

theorem conflictTokens_eq (T : Tables) (i : Index) (b : Body) (p : PortId) :
    conflictTokens T i b p = heldTokensWhere T (conflicts T i b) p := by
  unfold conflictTokens heldTokensWhere
  refine List.filter_congr fun t _ => ?_
  rw [Bool.eq_iff_iff, decide_eq_true_eq, mem_conflictingHolds]
  cases T.hold p t <;> simp

/-! ## The breaks of an AMEND, and the writer after it (R53, R65, R86) -/

/-- The tables with the conflicting holds broken. -/
def amendBroken (T : Tables) (i : Index) (b : Body) : Tables := T.breakAll .amended none (conflictingHolds T i b)

theorem amendTables_eq (T : Tables) (i : Index) (c : AmendChanges) (b : Body) :
    amendTables T i c b = (amendWriter (amendBroken T i b) i b).applyDeadline i c.deadline := rfl

theorem amendBroken_of_no_conflict {T : Tables} {i : Index} {b : Body} (h : conflictingHolds T i b = []) :
    amendBroken T i b = T := by
  unfold amendBroken
  rw [h, breakAll_nil]

theorem amendWriter_sole {T : Tables} {i : Index} {d : DataBody} (h : d.sharing = .sole) :
    amendWriter T i (.dataBody d) = T.setWriter i ((keptWriter T i (.dataBody d)).map Prod.fst) := by
  unfold amendWriter
  simp only [h]

theorem amendWriter_shared {T : Tables} {i : Index} {d : DataBody} (h : d.sharing = .shared) :
    amendWriter T i (.dataBody d) = T.setWriter i none := by
  unfold amendWriter
  simp only [h]

theorem amendWriter_sameHolds (T : Tables) (i : Index) (b : Body) : SameHolds T (amendWriter T i b) := by
  unfold amendWriter
  split
  · split
    · exact (sameHolds_closed T).setWriter _ _ (SameHolds.refl T)
    · exact (sameHolds_closed T).setWriter _ _ (SameHolds.refl T)
  · exact SameHolds.refl T

theorem amendTables_breaks (T : Tables) (i : Index) (c : AmendChanges) (b : Body) :
    BreaksHolds .amended T (amendTables T i c b) (conflictTokens T i b) := by
  refine (Breaks.then_sameHolds ((Breaks.heldWhere none (conflicts T i b)).congr fun p =>
    (conflictTokens_eq T i b p).symm) ?_).breaksHolds
  exact (sameHolds_closed _).applyDeadline i _ (amendWriter_sameHolds _ i b)

/-- A search of the fill order does not see the entries that breaks remove, where it passes them over. -/
theorem find?_fillOrder_breakAll (reason : BreakReason) (damaged : Option Index) (xs : List (PortId × Token))
    (f : PortId × Token → Bool) (hf : ∀ x ∈ xs, f x = false) (T : Tables) :
    (T.breakAll reason damaged xs).fillOrder.find? f = T.fillOrder.find? f := by
  have hone : ∀ (l : List (PortId × Token)) x, f x = false → (l.erase x).find? f = l.find? f := by
    intro l x hx
    induction l with
    | nil => rfl
    | cons y l ih =>
      rw [List.erase_cons]
      split_ifs with hy
      · rw [List.find?_cons, eq_of_beq hy, hx]
      · rw [List.find?_cons, List.find?_cons, ih]
  unfold Tables.breakAll
  induction xs generalizing T with
  | nil => rfl
  | cons x xs ih =>
    rw [List.foldl_cons, ih (fun y hy => hf y (List.mem_cons_of_mem _ hy))]
    by_cases hx : ∃ y, T.hold x.1 x.2 = .held y
    · obtain ⟨y, hy⟩ := hx
      rw [(breakHold_sameHolds reason damaged hy).fillOrder, breakUnpin_fillOrder]
      exact hone _ _ (hf x List.mem_cons_self)
    · rw [breakHold_not_held T reason damaged x fun y hy => hx ⟨y, hy⟩]

/-- With SOLE sharing the writing hold that is kept is the same before and after the breaks. -/
theorem keptWriter_amendBroken (T : Tables) (i : Index) (b : Body) (hb : b.sharing = .sole) :
    keptWriter (amendBroken T i b) i b = keptWriter T i b := by
  have hbreaks : Breaks .amended T (amendBroken T i b) (heldTokensWhere T (conflicts T i b)) := Breaks.heldWhere none _
  have hkeep : ∀ x, keepable (amendBroken T i b) i b x = true ↔ keepable T i b x = true ∧ keptWriter T i b = some x := by
    intro x
    rw [keepable_iff, keepable_iff, keptWriter_eq_some_iff]
    have hhold := hbreaks.hold x.1 x.2
    by_cases hm : x.2 ∈ heldTokensWhere T (conflicts T i b) x.1
    · rw [if_pos hm] at hhold
      obtain ⟨h, hh, hc⟩ := (mem_heldTokensWhere ..).mp hm
      refine iff_of_false (fun ⟨h', hh', _⟩ => ?_) fun ⟨⟨h', hh', _, hw, hrights, hbounds⟩, hold⟩ => ?_
      · rw [hhold] at hh'
        cases hh'
      · rw [hh] at hh'
        cases hh'
        rcases ((conflicts_iff T i b x.1 x.2 h).mp hc).2 with hc | ⟨-, -, hc⟩
        · rcases (conflictsAlone_iff i b h).mp hc with hc | ⟨he, hc⟩
          · rw [hw, hrights] at hc
            cases hc
          · obtain ⟨h1, h2⟩ := hbounds he
            rcases hc with hc | hc
            · exact Fin.not_lt.mpr h1 hc
            · exact Nat.not_lt.mpr h2 hc
        · exact hc hold
    · rw [if_neg hm] at hhold
      unfold writesUnder
      rw [hhold]
      refine ⟨fun hwrites => ⟨hwrites, ?_⟩, And.left⟩
      obtain ⟨h, hh, hr, hw, -⟩ := hwrites
      by_contra hold
      exact hm ((mem_heldTokensWhere ..).mpr
        ⟨h, hh, (conflicts_iff T i b x.1 x.2 h).mpr ⟨Or.inr hr, Or.inr ⟨hb, hw, hold⟩⟩⟩)
  have hfind : keptWriter (amendBroken T i b) i b = T.fillOrder.find? (keepable (amendBroken T i b) i b) := by
    refine find?_fillOrder_breakAll .amended none _ _ (fun x hx => ?_) T
    by_contra hk
    obtain ⟨h, hh, -⟩ := (keepable_iff _ i b x).mp (by simpa using hk)
    obtain ⟨h', hh', hc⟩ := (mem_conflictingHolds T i b x.1 x.2).mp hx
    rw [hbreaks.hold, if_pos ((mem_heldTokensWhere ..).mpr ⟨h', hh', hc⟩)] at hh
    cases hh
  rw [hfind]
  cases hkept : keptWriter T i b with
  | none =>
    refine List.find?_eq_none.mpr fun x _ hx => ?_
    have := (hkeep x).mp hx
    rw [hkept] at this
    cases this.2
  | some x =>
    obtain ⟨hx, older, younger, horder, hnone⟩ := List.find?_eq_some_iff_append.mp hkept
    refine List.find?_eq_some_iff_append.mpr ⟨(hkeep x).mpr ⟨hx, hkept⟩, older, younger, horder, fun y hy => ?_⟩
    have hy' := hnone y hy
    rw [Bool.not_eq_true'] at hy' ⊢
    by_contra hk
    rw [((hkeep y).mp (by simpa using hk)).1] at hy'
    cases hy'

theorem setWriter_self (T : Tables) {i : Index} (hi : i ≠ 0) (w : Option PortId) :
    (T.setWriter i w).entry i = { T.entry i with writer := w } := by
  unfold setWriter
  rw [entry_modEntry, if_pos ⟨rfl, hi⟩]

theorem applyDeadline_self (T : Tables) {i : Index} (hi : i ≠ 0) (c : DeadlineChange) :
    (T.applyDeadline i c).entry i = { T.entry i with deadline := match c with
      | .keep => (T.entry i).deadline
      | .set x => some x
      | .clear => none } := by
  cases c with
  | keep => rfl
  | set d => exact (enterQueue_entry T i i d hi).trans (if_pos rfl)
  | clear => exact leaveQueue_self i

theorem amendTables_writer (T : Tables) {i : Index} (hi : i ≠ 0) (c : AmendChanges) (d : DataBody) :
    WriterAfterAmend T i d ((amendTables T i c (.dataBody d)).entry i).writer := by
  rw [amendTables_eq, applyDeadline_self _ hi]
  dsimp only
  refine ⟨fun hs => ?_, fun hs => ?_⟩
  · rw [amendWriter_shared hs, setWriter_self _ hi]
  · rw [amendWriter_sole hs, setWriter_self _ hi, keptWriter_amendBroken T i (.dataBody d) hs]
    refine ⟨fun x hx => ?_, fun hx => ?_⟩
    · rw [(keptWriter_eq_some_iff ..).mpr hx]
      rfl
    · rw [(keptWriter_eq_none_iff ..).mpr hx]
      rfl

end State

open State in
/-- Settles O40: the test of each hold, the breaks and the writer. -/
theorem amendConflicts : Obligations.AmendConflicts := by
  refine ⟨fun T i body p k h hh => ?_, fun T i body c => ⟨amendTables_breaks T i c body, ?_⟩⟩
  · rw [mem_conflictingHolds, hh]
    have hone : (∃ h', HoldEntry.held h = .held h' ∧ conflicts T i body p k h' = true) ↔ conflicts T i body p k h = true :=
      ⟨fun ⟨h', he, hc⟩ => by cases he; exact hc, fun hc => ⟨h, rfl, hc⟩⟩
    rw [hone, conflicts_iff, conflictsAlone_iff, or_assoc]
  · rintro d hi rfl
    exact amendTables_writer T hi c d

end Sys2Proof.Machine
end

section
/-! SUPPORT. The decision claim of an AMEND job (R85, R86, R149). -/

namespace Sys2Proof.Machine

open Tables

namespace State

variable {s : State}

/-! ## The claim (R149) -/

theorem exec_amendReadHalfEnd_of_refusal {b : BankId} {i : Index} {g : Generation} {c : AmendChanges} {force : Bool}
    {rest : List Job} {st : AnswerStatus} (hbusy : (s.bank b).controller = .busy) (hhalf : (s.bank b).writeHalf = false)
    (hq : (s.bank b).queue = .amendJob i g c force :: rest)
    (hst : s.amendJobRefusal i g c force (s.readBody i) = some st) :
    exec (.amendReadHalfEnd b none) s =
      .next (((s.leaveHead b).amendRefused i g st (s.readBody i)).choicePoint b) := by
  show Host.Outcome.next (s.endReadHalf b none) = _
  simp only [endReadHalf, hbusy, hhalf, hq, decay, hst]

theorem exec_amendReadHalfEnd_of_passes {b : BankId} {i : Index} {g : Generation} {c : AmendChanges} {force : Bool}
    {rest : List Job} (hbusy : (s.bank b).controller = .busy) (hhalf : (s.bank b).writeHalf = false)
    (hq : (s.bank b).queue = .amendJob i g c force :: rest)
    (hst : s.amendJobRefusal i g c force (s.readBody i) = none) :
    exec (.amendReadHalfEnd b none) s = .next ((s.amendWritten i c (s.readBody i)).enterWriteHalf b) := by
  show Host.Outcome.next (s.endReadHalf b none) = _
  simp only [endReadHalf, hbusy, hhalf, hq, decay, hst]

/-- The tests of the decision in their order (R85). -/
theorem amendJobRefusal_eq {e : Progress} (he : s.engine = some e) (i : Index) (g : Generation) (c : AmendChanges)
    (force : Bool) (r : ReadResult) : s.amendJobRefusal i g c force r =
      if (s.tables.entry i).state = .free ∨ (s.tables.entry i).generation ≠ g then some AnswerStatus.stale
      else if (s.tables.entry i).state ≠ .live ∧ (s.tables.entry i).state ≠ .suspended then some .state
      else if r.agreed = false then some .damaged
      else if amendInBounds c e.targetExtent r.body = false then some .badArgument
      else if conflictingHolds s.tables i (amendedBody c r.body) ≠ [] ∧ force = false then some .conflict
      else none := by
  unfold amendJobRefusal
  rw [he]
  by_cases hu : usable s.tables i = false
  · rw [if_pos hu, if_pos ((usable_eq_false_iff s.tables i).mp hu)]
  · rw [if_neg hu, if_neg fun h => hu ((usable_eq_false_iff s.tables i).mpr h)]
    rfl

theorem amendJobRefusal_of_passes {e : Progress} (he : s.engine = some e) {i : Index} {g : Generation} {c : AmendChanges}
    {force : Bool} {r : ReadResult} (hs : (s.tables.entry i).state = .live ∨ (s.tables.entry i).state = .suspended)
    (hg : (s.tables.entry i).generation = g) (hagreed : r.agreed = true)
    (hbounds : amendInBounds c e.targetExtent r.body = true)
    (hconf : conflictingHolds s.tables i (amendedBody c r.body) = [] ∨ force = true) :
    s.amendJobRefusal i g c force r = none := by
  have hstale : ¬ ((s.tables.entry i).state = .free ∨ (s.tables.entry i).generation ≠ g) := by
    rcases hs with hs | hs <;> simp [hs, hg]
  have hstate : ¬ ((s.tables.entry i).state ≠ .live ∧ (s.tables.entry i).state ≠ .suspended) :=
    fun h => hs.elim h.1 h.2
  have hconf' : ¬ (conflictingHolds s.tables i (amendedBody c r.body) ≠ [] ∧ force = false) := by
    rintro ⟨h1, h2⟩
    rcases hconf with h | h
    · exact h1 h
    · rw [h] at h2
      cases h2
  rw [amendJobRefusal_eq he, if_neg hstale, if_neg hstate, if_neg (by simp [hagreed]), if_neg (by simp [hbounds]),
    if_neg hconf']

/-- A refused AMEND job is answered and makes the damage claim of its read. -/
theorem amendRefused_eq {e : Progress} (he : s.engine = some e) (i : Index) (g : Generation) (st : AnswerStatus)
    (r : ReadResult) : s.amendRefused i g st r =
      endsAnswered s (if r.agreed = true then s.tables else s.tables.damageClaim i g) e
        (e.jobs.map (withResult (.amended st))) st [] := by
  unfold amendRefused
  rw [setJobResult_of_engine _ he, refuse, answer_of_engine rfl, readClaim_tables]
  rfl

/-! ## A passing AMEND (R86) -/

/-- The state after the decision claim of an AMEND that passes. -/
def amendPassed (s : State) (b : BankId) (i : Index) (c : AmendChanges) (r : ReadResult) : State :=
  (s.amendWritten i c r).enterWriteHalf b

theorem setJobResult_rest (r : JobResult) : s.setJobResult r = { s with engine := (s.setJobResult r).engine } :=
  rfl

theorem amendWritten_rest (i : Index) (c : AmendChanges) (r : ReadResult) : s.amendWritten i c r =
    { s with
      tables := amendTables s.tables i c (amendedBody c r.body)
      banks := (s.writeCell i (.stored (amendedBody c r.body).sealed)).banks
      storage := (s.writeCell i (.stored (amendedBody c r.body).sealed)).storage
      engine := (s.amendWritten i c r).engine } := by
  have hwrite : ∀ cell, (s.onTables fun T => amendTables T i c (amendedBody c r.body)).writeCell i cell =
      { s.writeCell i cell with tables := amendTables s.tables i c (amendedBody c r.body) } := by
    intro cell
    unfold writeCell
    change (match (s.bank (bankOf i)).openPage with
      | some op => if op.page = pageOf i then _ else _
      | none => _) = _
    cases (s.bank (bankOf i)).openPage with
    | none => rfl
    | some op =>
      dsimp only
      split <;> rfl
  unfold amendWritten
  rw [setJobResult_rest, hwrite, writeCell_rest]

theorem amendPassed_tables (b : BankId) (i : Index) (c : AmendChanges) (r : ReadResult) :
    (s.amendPassed b i c r).tables = amendTables s.tables i c (amendedBody c r.body) := by
  unfold amendPassed enterWriteHalf
  rw [setBank_tables, amendWritten_rest]

theorem amendPassed_iface (b : BankId) (i : Index) (c : AmendChanges) (r : ReadResult) :
    (s.amendPassed b i c r).iface = s.iface ∧ (s.amendPassed b i c r).answerBuffer = s.answerBuffer := by
  unfold amendPassed enterWriteHalf
  rw [setBank_iface, setBank_answerBuffer, amendWritten_rest]
  exact ⟨rfl, rfl⟩

theorem amendWritten_bank (i : Index) (c : AmendChanges) (r : ReadResult) (b : BankId) :
    (s.amendWritten i c r).bank b = (s.writeCell i (.stored (amendedBody c r.body).sealed)).bank b := by
  unfold bank
  rw [amendWritten_rest]

/-- A body written belongs to one bank. -/
theorem bank_writeCell_other (i : Index) (c : Cell) {b : BankId} (hb : b ≠ bankOf i) :
    (s.writeCell i c).bank b = s.bank b := by
  unfold writeCell
  split
  · split
    · rw [bank_setBank, if_neg hb]
    · rfl
  · rfl

theorem amendPassed_bank {b : BankId} (i : Index) (hb : bankOf i = b) (c : AmendChanges) (r : ReadResult) :
    ((s.amendPassed b i c r).bank b).queue = (s.bank b).queue ∧
      ((s.amendPassed b i c r).bank b).controller = (s.bank b).controller ∧
      ((s.amendPassed b i c r).bank b).writeHalf = true ∧
      ∀ b', b' ≠ b → (s.amendPassed b i c r).bank b' = s.bank b' := by
  unfold amendPassed enterWriteHalf
  obtain ⟨o, -, ho⟩ := sameWork_writeCell s i (.stored (amendedBody c r.body).sealed) b
  simp only [bank_setBank, if_true, amendWritten_bank, ho]
  refine ⟨trivial, trivial, trivial, fun b' hb' => ?_⟩
  rw [if_neg hb']
  exact bank_writeCell_other i _ (hb ▸ hb')

theorem cellAt_of_banks {t : State} (hb : ∀ b, (t.bank b).openPage = (s.bank b).openPage) (hs : t.storage = s.storage)
    (he : t.bodyEra = s.bodyEra) (i : Index) : t.cellAt i = s.cellAt i := by
  unfold cellAt blankCell
  rw [hb, hs, he]

theorem amendPassed_cellAt (b : BankId) (i : Index) (c : AmendChanges) (r : ReadResult) (j : Index) :
    (s.amendPassed b i c r).cellAt j =
      if j = i then .stored (amendedBody c r.body).sealed else s.cellAt j := by
  rw [← cellAt_writeCell]
  refine cellAt_of_banks (fun b' => ?_) ?_ ?_ j
  · unfold amendPassed enterWriteHalf
    rw [bank_setBank]
    split
    · rename_i h
      rw [h, amendWritten_bank]
    · rw [amendWritten_bank]
  · unfold amendPassed enterWriteHalf
    rw [setBank_storage, amendWritten_rest]
  · unfold amendPassed enterWriteHalf
    rw [setBank_bodyEra, amendWritten_rest, writeCell_rest]

/-! ## The tables of a passing AMEND -/

section Passing

variable (T : Tables) {i : Index} (c : AmendChanges) (b : Body)

theorem amendWriter_entry (hi : i ≠ 0) : ∃ w, (∀ j, (amendWriter T i b).entry j =
    if j = i then { T.entry j with writer := w } else T.entry j) ∧
      ∀ a, b = .aliasBody a → w = (T.entry i).writer := by
  have hset : ∀ w j, (T.setWriter i w).entry j = if j = i then { T.entry j with writer := w } else T.entry j := by
    intro w j
    unfold setWriter
    rw [entry_modEntry]
    simp only [hi, ne_eq, not_false_eq_true, and_true]
  cases b with
  | aliasBody a =>
    refine ⟨(T.entry i).writer, fun j => ?_, fun _ _ => rfl⟩
    show T.entry j = _
    split_ifs with hj
    · rw [hj]
    · rfl
  | dataBody d =>
    cases hs : d.sharing with
    | sole => exact ⟨_, fun j => by rw [amendWriter_sole hs]; exact hset _ j, fun a h => (nomatch h)⟩
    | shared => exact ⟨_, fun j => by rw [amendWriter_shared hs]; exact hset _ j, fun a h => (nomatch h)⟩

theorem applyDeadline_entry_ne (x : DeadlineChange) (hi : i ≠ 0) {j : Index} (hj : j ≠ i) :
    (T.applyDeadline i x).entry j = T.entry j := by
  cases x with
  | keep => rfl
  | set d => exact (enterQueue_entry T i j d hi).trans (if_neg hj)
  | clear => exact (leaveQueue_entry T i j).trans (if_neg hj)

theorem applyDeadline_notices (x : DeadlineChange) : (T.applyDeadline i x).notices = T.notices := by
  cases x with
  | keep => rfl
  | set d =>
    show (T.enterQueue i d).notices = _
    rw [enterQueue_rest]
  | clear =>
    show (T.leaveQueue i).notices = _
    rw [leaveQueue_rest]

theorem amendWriter_notices : (amendWriter T i b).notices = T.notices := by
  have hset : ∀ w, (T.setWriter i w).notices = T.notices := fun w => by
    unfold setWriter
    rw [modEntry_rest]
  cases b with
  | aliasBody a => rfl
  | dataBody d =>
    cases hs : d.sharing with
    | sole => rw [amendWriter_sole hs, hset]
    | shared => rw [amendWriter_shared hs, hset]

/-- The deadline that an AMEND leaves on a LIVE or SUSPENDED record (R83). -/
theorem amendTables_deadline (hi : i ≠ 0) (hs : (T.entry i).state = .live ∨ (T.entry i).state = .suspended) :
    ((amendTables T i c b).entry i).deadline = match c.deadline with
      | .keep => (T.entry i).deadline
      | .set x => some x
      | .clear => none := by
  have hr : retirable (T.entry i).state = true := by rcases hs with hs | hs <;> rw [hs] <;> rfl
  obtain ⟨-, -, -, -, -, hdead⟩ := sameLife_breakAll hr .amended none (conflictingHolds T i b)
  obtain ⟨w, hw, -⟩ := amendWriter_entry (amendBroken T i b) b hi
  rw [amendTables_eq, applyDeadline_self _ hi, hw, if_pos rfl]
  cases c.deadline with
  | keep => exact hdead
  | set d => rfl
  | clear => rfl

end Passing

end State

open State in
/-- Settles O39: the refusals of an AMEND job, and what a passing one does with and without conflicts. -/
theorem amendJobDecides : Obligations.AmendJobDecides := by
  intro s b i g c force rest e r hbusy hhalf hq hb he hr
  subst hr
  refine ⟨fun st hst => ?_, fun hs h0 hg hagreed hbounds hnone hopen => ?_,
    fun hs h0 hg hagreed hbounds hconf hforce hopen => ?_⟩
  · obtain ⟨ph, hph⟩ := State.leaveHead_engine (b := b) he
    have hexec := exec_amendReadHalfEnd_of_refusal hbusy hhalf hq ((amendJobRefusal_eq he i g c force _).trans hst)
    rw [amendRefused_eq hph, State.leaveHead_tables] at hexec
    obtain ⟨htables, hiface, hanswer, hends⟩ := State.choicePoint_endsAnswered
      (if (s.readBody i).agreed = true then s.tables else s.tables.damageClaim i g) e
      (e.jobs.map (withResult (.amended st))) st [] hq
    have hend : exec (.amendReadHalfEnd b none) s = .next (State.choicePoint (State.endsAnswered (s.leaveHead b)
        (if (s.readBody i).agreed = true then s.tables else s.tables.damageClaim i g) e
        (e.jobs.map (withResult (.amended st))) st []) b) := hexec
    refine ⟨_, hend, hanswer, hiface, htables, fun u hu => ?_⟩
    rw [htables]
    exact hends u hu
  · have hexec := exec_amendReadHalfEnd_of_passes hbusy hhalf hq
      (amendJobRefusal_of_passes he hs hg hagreed hbounds (Or.inl hnone))
    obtain ⟨h1, h2, h3, h4⟩ := amendPassed_bank (s := s) i hb c (s.readBody i)
    obtain ⟨k1, k2⟩ := amendPassed_iface (s := s) b i c (s.readBody i)
    have htables := amendPassed_tables (s := s) b i c (s.readBody i)
    have hcell := amendPassed_cellAt (s := s) b i c (s.readBody i)
    have heq := amendTables_eq s.tables i c (amendedBody c (s.readBody i).body)
    rw [amendBroken_of_no_conflict hnone] at heq
    obtain ⟨w, hw, hwa⟩ := amendWriter_entry s.tables (amendedBody c (s.readBody i).body) h0
    have hself : (s.amendPassed b i c (s.readBody i)).tables.entry i = { s.tables.entry i with
        writer := w
        deadline := match c.deadline with
          | .keep => (s.tables.entry i).deadline
          | .set x => some x
          | .clear => none } := by
      rw [htables, heq, applyDeadline_self _ h0, hw, if_pos rfl] <;> rfl
    refine ⟨s.amendPassed b i c (s.readBody i), hexec, (hcell i).trans (if_pos rfl),
      fun j hj => (hcell j).trans (if_neg hj), ?_, ?_, fun j hj => ?_, ?_, ?_, h1, h2.trans hbusy, h3, h4, k1, k2⟩
    · split
      · rename_i d hd
        rw [htables, hd]
        exact amendTables_writer s.tables h0 c d
      · rename_i a ha
        rw [hself]
        exact hwa a ha
    · rw [hself] <;> rfl
    · rw [htables, heq, applyDeadline_entry_ne _ _ h0 hj, hw, if_neg hj]
    · rw [htables, heq]
      exact ((sameHolds_closed s.tables).applyDeadline i _ (amendWriter_sameHolds s.tables i _)).holds
    · rw [htables, heq, applyDeadline_notices, amendWriter_notices]
  · have hexec := exec_amendReadHalfEnd_of_passes hbusy hhalf hq
      (amendJobRefusal_of_passes he hs hg hagreed hbounds (Or.inr hforce))
    obtain ⟨h1, h2, h3, h4⟩ := amendPassed_bank (s := s) i hb c (s.readBody i)
    obtain ⟨k1, k2⟩ := amendPassed_iface (s := s) b i c (s.readBody i)
    have htables := amendPassed_tables (s := s) b i c (s.readBody i)
    have hcell := amendPassed_cellAt (s := s) b i c (s.readBody i)
    refine ⟨s.amendPassed b i c (s.readBody i), hexec, (hcell i).trans (if_pos rfl),
      fun j hj => (hcell j).trans (if_neg hj), ?_, fun d hd => ?_, ?_, h1, h2.trans hbusy, h3, h4, k1, k2⟩
    · rw [htables]
      exact amendTables_breaks s.tables i c _
    · rw [htables, hd]
      exact amendTables_writer s.tables h0 c d
    · rw [htables]
      exact amendTables_deadline s.tables c _ h0 hs

end Sys2Proof.Machine
end

section
/-! SUPPORT. A damage claim (R14, R67). -/

namespace Sys2Proof.Machine

open Tables

namespace State

variable {T T' : Tables}

/-! ## What a list of breaks does to the records of its holds -/

/-- An entry that has not been reached yet stays through the break of another. -/
theorem hold_breakHold_ne (reason : BreakReason) (damaged : Option Index) {x y : PortId × Token} (h : y ≠ x) :
    (T.breakHold reason damaged x).hold y.1 y.2 = T.hold y.1 y.2 := by
  by_cases hx : ∃ z, T.hold x.1 x.2 = .held z
  · obtain ⟨z, hz⟩ := hx
    rw [(breakHold_sameHolds reason damaged hz).hold, breakUnpin_hold, if_neg fun e => h (Prod.ext e.1 e.2)]
  · rw [breakHold_not_held T reason damaged x fun z hz => hx ⟨z, hz⟩]

/-- A break leaves no HELD entry that was not HELD before. -/
theorem held_of_breakHold (reason : BreakReason) (damaged : Option Index) (x : PortId × Token) {p : PortId} {t : Token}
    {h : HeldHold} (hh : (T.breakHold reason damaged x).hold p t = .held h) : T.hold p t = .held h := by
  by_cases hx : ∃ z, T.hold x.1 x.2 = .held z
  · obtain ⟨z, hz⟩ := hx
    rw [(breakHold_sameHolds reason damaged hz).hold, breakUnpin_hold] at hh
    split_ifs at hh
    exact hh
  · rwa [breakHold_not_held T reason damaged x fun z hz => hx ⟨z, hz⟩] at hh

/-- What one break brings about, for good, is so after all the breaks of a claim that its entry is among. -/
theorem breakAll_of_mem {reason : BreakReason} {damaged : Option Index} {x : PortId × Token} {h : HeldHold}
    (P : Tables → Prop) (Q : Tables → Prop)
    (hkeep : ∀ T y, P T → P (T.breakHold reason damaged y))
    (hdone : ∀ T, P T → T.hold x.1 x.2 = .held h → Q (T.breakHold reason damaged x))
    (hstay : ∀ T xs, Q T → Q (T.breakAll reason damaged xs)) {xs : List (PortId × Token)} (hx : x ∈ xs) (T : Tables)
    (hP : P T) (hh : T.hold x.1 x.2 = .held h) : Q (T.breakAll reason damaged xs) := by
  induction xs generalizing T with
  | nil => exact absurd hx List.not_mem_nil
  | cons y xs ih =>
    by_cases hyx : x = y
    · subst hyx
      exact hstay _ xs (hdone T hP hh)
    · exact ih ((List.mem_cons.mp hx).resolve_left hyx) _ (hkeep T y hP)
        ((hold_breakHold_ne reason damaged hyx).trans hh)

/-- The break of a WRITE hold leaves its DATA record without a writer (R53, R55). -/
theorem breakAll_writer {reason : BreakReason} {damaged : Option Index} {xs : List (PortId × Token)}
    {x : PortId × Token} (hx : x ∈ xs) {h : HeldHold} (hh : T.hold x.1 x.2 = .held h) (hw : h.access = .write) :
    ((T.breakAll reason damaged xs).entry h.resolved).writer = none := by
  refine breakAll_of_mem (fun _ => True) (fun T => (T.entry h.resolved).writer = none) (fun _ _ _ => trivial)
    (fun T _ hh => ?_) (fun T xs hT => ?_) hx T trivial hh
  · have hunpin : ((T.breakUnpin reason x.1 x.2 h).entry h.resolved).writer = none := by
      rw [breakUnpin_entry]
      exact if_pos ⟨rfl, hw⟩
    have hsteady : Steady (fun _ => True) (T.breakUnpin reason x.1 x.2 h) (T.breakHold reason damaged x) := by
      rw [breakHold_held reason damaged T x h hh]
      exact (Steady.raiseBreak reason damaged _).trans (Steady.testRecords damaged h)
    rcases (hsteady h.resolved).writer with hs | hs
    · exact hs.trans hunpin
    · exact hs
  · rcases (Steady.breakAll (A := fun _ => True) reason damaged xs (T := T) h.resolved).writer with hs | hs
    · exact hs.trans hT
    · exact hs

/-- What is FREE has no pin. -/
def FreeUnpinned (T : Tables) : Prop := ∀ j, (T.entry j).state = .free → (T.entry j).pins = 0

theorem freeUnpinned_of_entryLaw (h : EntryLaw T) : FreeUnpinned T := fun j hj => ((h j).1 hj).2.2.2.2.1

/-- A break that raises PIN_BROKEN leaves it raised on the record named, the damaged one apart (R64). -/
theorem breakAll_pinBroken {reason : BreakReason} {damaged : Option Index} (hr : raisesPinBroken reason = true)
    {xs : List (PortId × Token)} {x : PortId × Token} (hx : x ∈ xs) {h : HeldHold} (hh : T.hold x.1 x.2 = .held h)
    (hd : damaged ≠ some h.index) (hp : PinLaw T) (hf : FreeUnpinned T) :
    ((T.breakAll reason damaged xs).entry h.index).reasons.pinBroken = true := by
  refine breakAll_of_mem (fun T => PinLaw T ∧ FreeUnpinned T) (fun T => (T.entry h.index).reasons.pinBroken = true)
    (fun T y ⟨hp, hf⟩ => ⟨pinLaw_breakHold hp reason damaged y, fun j =>
      (Steady.breakHold (A := fun _ => True) reason damaged y (T := T) j).unpinned (hf j)⟩)
    (fun T ⟨hp, hf⟩ hh => ?_) (fun T xs hT => ?_) hx T ⟨hp, hf⟩ hh
  · have hfree : (T.entry h.index).state ≠ .free := fun he => by
      have hpos := restCount_pos hh (i := h.index) (Or.inl rfl)
      rw [← ((pinLaw_iff T).mp hp h.index).1, hf h.index he] at hpos
      exact absurd hpos (Nat.lt_irrefl 0)
    have hraised : ((raiseBreak reason damaged (T.breakUnpin reason x.1 x.2 h) h.index).entry h.index).reasons.pinBroken =
        true := by
      unfold raiseBreak
      rw [if_pos ⟨hr, hd⟩, raiseRecord_entries, if_pos ⟨rfl, by rw [breakUnpin_entry]; exact hfree⟩]
      rfl
    rw [breakHold_held reason damaged T x h hh]
    exact ((Steady.testRecords (A := fun _ => True) damaged h) h.index).reasons.pinBroken hraised
  · exact (Steady.breakAll (A := fun _ => True) reason damaged xs (T := T) h.index).reasons.pinBroken hT

/-! ## The damaged record while its holds are broken -/

/-- All of a record but its pins, its writer and its alias list stays. -/
def Spared (i : Index) (T T' : Tables) : Prop :=
  ∃ n w l, T'.entry i = { T.entry i with pins := n, writer := w, aliases := l }

namespace Spared

variable {i : Index} {T'' : Tables}

theorem of_entry_eq (h : T'.entry i = T.entry i) : Spared i T T' :=
  ⟨(T.entry i).pins, (T.entry i).writer, (T.entry i).aliases, h⟩

theorem trans (h : Spared i T T') (h' : Spared i T' T'') : Spared i T T'' := by
  obtain ⟨n, w, l, h⟩ := h
  obtain ⟨n', w', l', h'⟩ := h'
  exact ⟨n', w', l', by rw [h', h]⟩

theorem testTarget (t : Index) : Spared i T (testTarget (some i) T t) := by
  by_cases ht : t = i
  · subst ht
    exact of_entry_eq (congrArg (fun T => Tables.entry T t) (if_neg fun h => h.1 rfl))
  · exact of_entry_eq (testTarget_entry_ne (some i) (Or.inl (Ne.symm ht)))

theorem becomeFree {j : Index} (hj : j ≠ i) (h0 : j ≠ 0) : Spared i T (becomeFree (some i) T j) := by
  have hfreed : Spared i T (T.freed j) := by
    refine ⟨(T.entry i).pins, (T.entry i).writer,
      if (T.entry j).target = some i then (T.entry i).aliases.erase j else (T.entry i).aliases, ?_⟩
    rw [freed_entry T j i h0, if_neg (Ne.symm hj)]
    split <;> rfl
  rw [becomeFree_eq]
  refine Spared.trans ?_ (of_entry_eq (joinOrPark_entry _ j i))
  cases (T.entry j).target with
  | none => exact hfreed
  | some t => exact hfreed.trans (testTarget t)

theorem testDraining (j : Index) : Spared i T (testDraining (some i) T j) := by
  unfold Tables.testDraining
  split_ifs with hc
  · have hj : j ≠ i := fun e => hc.1 (congrArg some e.symm)
    have hs := ((completes_iff _).mp hc.2).1
    exact (of_entry_eq (raiseRecord_entry_ne T j i .drained (Ne.symm hj))).trans
      (becomeFree hj (Core.ne_zero (by rw [hs]; decide)))
  · exact of_entry_eq rfl

theorem breakHold (reason : BreakReason) (x : PortId × Token) : Spared i T (T.breakHold reason (some i) x) := by
  by_cases hx : ∃ z, T.hold x.1 x.2 = .held z
  · obtain ⟨z, hz⟩ := hx
    have hunpin : Spared i T (T.breakUnpin reason x.1 x.2 z) := ⟨_, _, (T.entry i).aliases, by rw [breakUnpin_entry]⟩
    have hraise : ∀ T : Tables, Spared i T (raiseBreak reason (some i) T z.index) := by
      intro T
      unfold raiseBreak
      split_ifs with hc
      · exact of_entry_eq (raiseRecord_entry_ne T _ i _ fun e => hc.2 (congrArg some e))
      · exact of_entry_eq rfl
    have htest : ∀ T : Tables, Spared i T (testRecords (some i) T z) := by
      intro T
      unfold testRecords
      dsimp only
      split_ifs
      · exact testDraining _
      · exact (testDraining _).trans (testDraining _)
    rw [breakHold_held reason (some i) T x z hz]
    exact (hunpin.trans (hraise _)).trans (htest _)
  · rw [breakHold_not_held T reason (some i) x fun z hz => hx ⟨z, hz⟩]
    exact of_entry_eq rfl

theorem breakAll (reason : BreakReason) (xs : List (PortId × Token)) : Spared i T (T.breakAll reason (some i) xs) := by
  unfold Tables.breakAll
  induction xs generalizing T with
  | nil => exact of_entry_eq rfl
  | cons x xs ih => exact (breakHold reason x).trans ih

end Spared

/-! ## The records that no break is about -/

/-- The test of a record leaves every other one but its target. -/
theorem testDraining_entry_ne (skip : Option Index) {i j : Index} (hj : j ≠ i) (ht : (T.entry i).target ≠ some j) :
    (testDraining skip T i).entry j = T.entry j := by
  unfold Tables.testDraining
  split_ifs with hc
  · have hs := ((completes_iff _).mp hc.2).1
    have h0 : i ≠ 0 := Core.ne_zero (by rw [hs]; decide)
    have htarget := (Core.raiseRecord_fields T i .drained i).2.2.2.1
    have hfreed : ((T.raiseRecord i .drained).freed i).entry j = T.entry j := by
      rw [freed_entry _ i j h0, if_neg hj, if_neg (by rw [htarget]; exact ht), raiseRecord_entry_ne T i j .drained hj]
    rw [becomeFree_eq, joinOrPark_entry]
    cases h : ((T.raiseRecord i .drained).entry i).target with
    | none => exact hfreed
    | some t =>
      have hjt : j ≠ t := by
        rintro rfl
        exact ht (htarget.symm.trans h)
      exact (testTarget_entry_ne skip (Or.inl hjt)).trans hfreed
  · rfl

/-- Neither record of the hold is `j`, nor has it for target. -/
def Avoids (T : Tables) (j : Index) (h : HeldHold) : Prop :=
  h.index ≠ j ∧ h.resolved ≠ j ∧ (T.entry h.index).target ≠ some j ∧ (T.entry h.resolved).target ≠ some j

/-- A record that is not another's target does not become it in a claim that is about neither. -/
theorem Steady.target_ne (h : Steady (fun _ => False) T T') {i j : Index} (ht : (T.entry i).target ≠ some j) :
    (T'.entry i).target ≠ some j := by
  rcases (h i).life id with ⟨-, -, -, -, hs, -⟩ | ⟨-, -, hs⟩
  · rwa [hs]
  · rw [hs]
    exact fun e => (nomatch e)

theorem Avoids.steady {j : Index} {h : HeldHold} (ha : Avoids T j h) (hs : Steady (fun _ => False) T T') :
    Avoids T' j h := by
  obtain ⟨h1, h2, h3, h4⟩ := ha
  exact ⟨h1, h2, hs.target_ne h3, hs.target_ne h4⟩

theorem Avoids.breakHold {j : Index} {x : PortId × Token} {h : HeldHold} (ha : Avoids T j h) (reason : BreakReason)
    (damaged : Option Index) (hh : T.hold x.1 x.2 = .held h) : (T.breakHold reason damaged x).entry j = T.entry j := by
  have ha' := ha
  obtain ⟨h1, h2, -, -⟩ := ha'
  have hunpin : (T.breakUnpin reason x.1 x.2 h).entry j = T.entry j := by
    rw [breakUnpin_entry, if_neg fun e => e.elim (fun e => h1 e.symm) fun e => h2 e.symm, if_neg fun e => h2 e.1.symm]
  have hraise : (raiseBreak reason damaged (T.breakUnpin reason x.1 x.2 h) h.index).entry j = T.entry j := by
    unfold raiseBreak
    split_ifs
    · rw [raiseRecord_entry_ne _ _ j _ h1.symm, hunpin]
    · exact hunpin
  obtain ⟨-, -, h3, h4⟩ := ha.steady ((Steady.breakUnpin reason x.1 x.2 h).trans
    (Steady.raiseBreak reason damaged h.index))
  rw [breakHold_held reason damaged T x h hh]
  unfold testRecords
  dsimp only
  split_ifs
  · rw [testDraining_entry_ne damaged h1.symm h3, hraise]
  · rw [testDraining_entry_ne damaged h2.symm ((Steady.testDraining damaged h.index).target_ne h4),
      testDraining_entry_ne damaged h1.symm h3, hraise]

/-- A list of breaks leaves the records that none of its holds rests on or has behind it. -/
theorem breakAll_entry_of_avoids (reason : BreakReason) (damaged : Option Index) {xs : List (PortId × Token)} {j : Index}
    (h : ∀ x ∈ xs, ∀ y, T.hold x.1 x.2 = .held y → Avoids T j y) :
    (T.breakAll reason damaged xs).entry j = T.entry j := by
  induction xs generalizing T with
  | nil => rfl
  | cons x xs ih =>
    have hone : (T.breakHold reason damaged x).entry j = T.entry j := by
      by_cases hx : ∃ z, T.hold x.1 x.2 = .held z
      · obtain ⟨z, hz⟩ := hx
        exact (h x List.mem_cons_self z hz).breakHold reason damaged hz
      · rw [breakHold_not_held T reason damaged x fun z hz => hx ⟨z, hz⟩]
    refine (ih fun y hy z hz => ?_).trans hone
    exact (h y (List.mem_cons_of_mem _ hy) z (held_of_breakHold reason damaged x hz)).steady
      (Steady.breakHold reason damaged x)

end State

end Sys2Proof.Machine
end

section
/-! SUPPORT. A damage claim by the state of its record (R14, R67). -/

namespace Sys2Proof.Machine

open Tables

namespace State

variable (T : Tables) (i : Index)

/-- The tables of a damage claim with its breaks done. -/
def damageBroken : Tables := T.breakAll .damaged (some i) (T.heldWhere fun _ _ h => restsOn i h)

/-- The end of the claim on a LIVE or SUSPENDED record. -/
def damageEnd (T : Tables) (i : Index) : Tables :=
  ((T.leaveQueue i).raiseRecord i .damaged).modEntry i fun e => { e with state := .damaged }

variable {T i}

theorem damageClaim_of_none {g : Generation}
    (h : (T.entry i).generation ≠ g ∨ (T.entry i).state = .free ∨ (T.entry i).state = .pending ∨
      (T.entry i).state = .damaged) : T.damageClaim i g = T := by
  unfold damageClaim
  by_cases hg : (T.entry i).generation ≠ g
  · exact if_pos hg
  · rw [if_neg hg]
    dsimp only
    rcases h.resolve_left hg with h | h | h <;> rw [h]

theorem damageClaim_of_live {g : Generation} (hg : (T.entry i).generation = g)
    (hs : (T.entry i).state = .live ∨ (T.entry i).state = .suspended) :
    T.damageClaim i g = damageEnd (damageBroken T i) i := by
  unfold damageClaim
  rw [if_neg fun h => h hg]
  rcases hs with hs | hs <;> rw [hs] <;> rfl

theorem damageClaim_of_draining {g : Generation} (hg : (T.entry i).generation = g)
    (hs : (T.entry i).state = .draining) :
    T.damageClaim i g = testDraining none ((damageBroken T i).raiseRecord i .damaged) i := by
  unfold damageClaim
  rw [if_neg fun h => h hg, hs]
  rfl

theorem damageEnd_entry (h : (T.entry i).state ≠ .free) (j : Index) : (damageEnd T i).entry j =
    if j = i then { T.entry i with
      state := .damaged
      deadline := none
      reasons := (T.entry i).reasons.add .damaged
      noticeGen := if (T.entry i).reasons = ⟨false, false, false, false⟩ then some (T.entry i).generation
        else (T.entry i).noticeGen }
    else T.entry j := by
  have h0 := Core.ne_zero h
  have hself : (T.leaveQueue i).entry i = { T.entry i with deadline := none } := leaveQueue_self i
  unfold damageEnd
  rw [entry_modEntry]
  by_cases hj : j = i
  · subst hj
    rw [if_pos ⟨rfl, h0⟩, if_pos rfl, raiseRecord_entries, if_pos ⟨rfl, by rw [hself]; exact h⟩, hself, ite_isEmpty]
  · rw [if_neg fun e => hj e.1, if_neg hj, raiseRecord_entry_ne _ _ _ _ hj, leaveQueue_entry, if_neg hj]

theorem damageEnd_rest (h : (T.entry i).state ≠ .free) : damageEnd T i = { T with
    rst := (damageEnd T i).rst
    expiryQueue := T.expiryQueue.filter fun x => x.2 != i
    notices := if (T.entry i).reasons = ⟨false, false, false, false⟩ then T.notices ++ [.record i] else T.notices } := by
  have hself : (T.leaveQueue i).entry i = { T.entry i with deadline := none } := leaveQueue_self i
  have hnot := raiseRecord_notices (T := T.leaveQueue i) (i := i) .damaged (by rw [hself]; exact h)
  have hq := leaveQueue_rest T i
  have hqn : (T.leaveQueue i).notices = T.notices := by rw [hq]
  rw [hself, hqn] at hnot
  have hnotices : ((T.leaveQueue i).raiseRecord i .damaged).notices =
      if (T.entry i).reasons = ⟨false, false, false, false⟩ then T.notices ++ [.record i] else T.notices := by
    rw [hnot]
    split
    · rfl
    · exact List.append_nil _
  have hraise := raiseRecord_rest (T.leaveQueue i) i .damaged
  rw [hnotices] at hraise
  have hmod := modEntry_rest ((T.leaveQueue i).raiseRecord i .damaged) i fun e => { e with state := .damaged }
  unfold damageEnd
  generalize ((T.leaveQueue i).raiseRecord i .damaged).modEntry i (fun e => { e with state := .damaged }) = M at hmod
  generalize (T.leaveQueue i).raiseRecord i .damaged = R at hmod hraise
  rw [hraise, hq] at hmod
  exact hmod

theorem damageEnd_sameHolds (T : Tables) (i : Index) : SameHolds T (damageEnd T i) :=
  (sameHolds_closed T).modEntry i _ (fun _ => rfl)
    ((sameHolds_closed T).raiseRecord i .damaged ((sameHolds_closed T).leaveQueue i (SameHolds.refl T)))

/-! ## The breaks -/

theorem damageBroken_breaks (T : Tables) (i : Index) : Breaks .damaged T (damageBroken T i) (restingTokens T i) :=
  (Breaks.heldWhere (some i) fun _ _ h => restsOn i h).congr fun p => (restingTokens_eq T i p).symm

theorem damageBroken_spared (T : Tables) (i : Index) : Spared i T (damageBroken T i) := Spared.breakAll .damaged _

theorem damageBroken_steady (T : Tables) (i : Index) : Steady (fun _ => False) T (damageBroken T i) :=
  Steady.breakAll _ _ _

theorem mem_resting (T : Tables) (i : Index) {p : PortId} {t : Token} {h : HeldHold} (hh : T.hold p t = .held h)
    (hi : h.index = i ∨ h.resolved = i) : (p, t) ∈ T.heldWhere fun _ _ h => restsOn i h :=
  (mem_heldWhere T _ (p, t)).mpr ⟨h, hh, (restsOn_iff i h).mpr (hi.imp Eq.symm Eq.symm)⟩

/-- The writer of the damaged record is gone with its hold, where writers kept their law (R53). -/
theorem damageBroken_writer (hw : WriterLaw T) : ((damageBroken T i).entry i).writer = none := by
  rcases (damageBroken_steady T i i).writer with hs | hs
  · cases hwi : (T.entry i).writer with
    | none => exact hs.trans hwi
    | some p =>
      obtain ⟨t, h, hh, hacc, rfl⟩ := hw i p hwi
      exact breakAll_writer (mem_resting T h.resolved hh (Or.inr rfl)) hh hacc
  · exact hs

/-- The claim ends on the holds and frames that its breaks left. -/
theorem damageClaim_sameHolds {g : Generation} (hg : (T.entry i).generation = g)
    (hs : (T.entry i).state = .live ∨ (T.entry i).state = .suspended ∨ (T.entry i).state = .draining) :
    SameHolds (damageBroken T i) (T.damageClaim i g) := by
  by_cases hd : (T.entry i).state = .draining
  · rw [damageClaim_of_draining hg hd]
    exact (sameHolds_closed _).testDraining none i ((sameHolds_closed _).raiseRecord i .damaged (SameHolds.refl _))
  · rw [damageClaim_of_live hg (hs.imp id fun h => h.resolve_right hd)]
    exact damageEnd_sameHolds _ i

/-- The damaged record at the end of its claim: its reasons, by what its state was. -/
theorem damageClaim_reasons {g : Generation} (hg : (T.entry i).generation = g)
    (hs : (T.entry i).state = .live ∨ (T.entry i).state = .suspended ∨ (T.entry i).state = .draining) :
    ((T.damageClaim i g).entry i).reasons.damaged = true ∧
      ((T.damageClaim i g).entry i).reasons.pinBroken = (T.entry i).reasons.pinBroken := by
  obtain ⟨n, w, l, hspared⟩ := damageBroken_spared T i
  have hfree : ((damageBroken T i).entry i).state ≠ .free := by
    rw [hspared]
    rcases hs with hs | hs | hs <;> simp [hs]
  by_cases hd : (T.entry i).state = .draining
  · rw [damageClaim_of_draining hg hd]
    have hraise := raiseRecord_entries (damageBroken T i) i .damaged i
    rw [if_pos ⟨rfl, hfree⟩, hspared] at hraise
    by_cases hc : completes (((damageBroken T i).raiseRecord i .damaged).entry i) = true
    · rw [testDraining_self hc, hraise]
      exact ⟨rfl, rfl⟩
    · rw [testDraining_of_not _ _ _ (by simpa using hc), hraise]
      exact ⟨rfl, rfl⟩
  · rw [damageClaim_of_live hg (hs.imp id fun h => h.resolve_right hd), damageEnd_entry hfree, if_pos rfl, hspared]
    exact ⟨rfl, rfl⟩

end State

end Sys2Proof.Machine
end

section
/-! SUPPORT. What a damage claim does, record by record (R14, R67). -/

namespace Sys2Proof.Machine

open Tables

namespace State

variable {T : Tables} {i : Index} {g : Generation}

/-- The claim leaves a record that no hold broken rests on or has behind it. -/
theorem damageClaim_entry_of_avoids {j : Index} (hj : j ≠ i)
    (h : ∀ p k y, T.hold p k = .held y → y.index = i ∨ y.resolved = i → Avoids T j y)
    (ht : (T.entry i).target ≠ some j) : (T.damageClaim i g).entry j = T.entry j := by
  have hbroken : (damageBroken T i).entry j = T.entry j := by
    refine breakAll_entry_of_avoids .damaged (some i) fun x hx y hy => h x.1 x.2 y hy ?_
    obtain ⟨y', hy', hr⟩ := (mem_heldWhere T _ x).mp hx
    rw [hy] at hy'
    cases hy'
    exact ((restsOn_iff i y).mp hr).imp Eq.symm Eq.symm
  obtain ⟨n, w, l, hspared⟩ := damageBroken_spared T i
  by_cases hclaims : (T.entry i).generation = g ∧ ((T.entry i).state = .live ∨ (T.entry i).state = .suspended ∨
      (T.entry i).state = .draining)
  · obtain ⟨hg, hs⟩ := hclaims
    by_cases hd : (T.entry i).state = .draining
    · have htarget : (((damageBroken T i).raiseRecord i .damaged).entry i).target ≠ some j := by
        rw [(Core.raiseRecord_fields _ _ _ i).2.2.2.1, hspared]
        exact ht
      rw [damageClaim_of_draining hg hd, testDraining_entry_ne none hj htarget, raiseRecord_entry_ne _ _ _ _ hj, hbroken]
    · have hfree : ((damageBroken T i).entry i).state ≠ .free := by
        rw [hspared]
        rcases hs with hs | hs | hs <;> simp [hs]
      rw [damageClaim_of_live hg (hs.imp id fun h => h.resolve_right hd), damageEnd_entry hfree, if_neg hj, hbroken]
  · rw [damageClaim_of_none]
    by_contra hn
    rw [not_or, not_or, not_or, not_not] at hn
    obtain ⟨hg, h1, h2, h3⟩ := hn
    refine hclaims ⟨hg, ?_⟩
    cases hs : (T.entry i).state <;> simp_all

/-- PIN_BROKEN stands on an alias whose hold the claim broke (R64). -/
theorem damageClaim_pinBroken (hg : (T.entry i).generation = g)
    (hs : (T.entry i).state = .live ∨ (T.entry i).state = .suspended ∨ (T.entry i).state = .draining)
    (he : EntryLaw T) (hp : PinLaw T) {p : PortId} {k : Token} {h : HeldHold} (hh : T.hold p k = .held h)
    (hr : h.resolved = i) (hne : h.index ≠ i) :
    ((T.damageClaim i g).entry h.index).reasons.pinBroken = true := by
  have hbroken : ((damageBroken T i).entry h.index).reasons.pinBroken = true :=
    breakAll_pinBroken rfl (mem_resting T i hh (Or.inr hr)) hh (fun e => hne (Option.some.inj e).symm) hp
      (freeUnpinned_of_entryLaw he)
  obtain ⟨n, w, l, hspared⟩ := damageBroken_spared T i
  by_cases hd : (T.entry i).state = .draining
  · rw [damageClaim_of_draining hg hd]
    have hsteady : Steady (fun _ => True) (damageBroken T i)
        (testDraining none ((damageBroken T i).raiseRecord i .damaged) i) :=
      (Steady.raiseRecord i .damaged).trans (Steady.testDraining none i)
    exact (hsteady h.index).reasons.pinBroken hbroken
  · have hfree : ((damageBroken T i).entry i).state ≠ .free := by
      rw [hspared]
      rcases hs with hs | hs | hs <;> simp [hs]
    rw [damageClaim_of_live hg (hs.imp id fun h => h.resolve_right hd), damageEnd_entry hfree, if_neg hne]
    exact hbroken

/-- A LIVE or SUSPENDED record becomes DAMAGED (R14). -/
theorem damageClaim_live (hg : (T.entry i).generation = g)
    (hs : (T.entry i).state = .live ∨ (T.entry i).state = .suspended) :
    ((T.damageClaim i g).entry i).state = .damaged ∧ ((T.damageClaim i g).entry i).generation = g ∧
      ((T.damageClaim i g).entry i).deadline = none ∧ (∀ x ∈ (T.damageClaim i g).expiryQueue, x.2 ≠ i) ∧
      ((T.damageClaim i g).entry i).reasons = { (T.entry i).reasons with damaged := true } ∧
      (PinLaw T → ((T.damageClaim i g).entry i).pins = 0) ∧
      (WriterLaw T → ((T.damageClaim i g).entry i).writer = none) := by
  have hspared := damageBroken_spared T i
  have hpins : PinLaw T → ((damageBroken T i).entry i).pins = 0 := fun hp => pins_breakAll hp .damaged (some i) i
  have hwriter := damageBroken_writer (T := T) (i := i)
  obtain ⟨n, w, l, hspared⟩ := hspared
  have hfree : ((damageBroken T i).entry i).state ≠ .free := by
    rw [hspared]
    rcases hs with hs | hs <;> simp [hs]
  have hself := damageEnd_entry hfree i
  rw [if_pos rfl] at hself
  rw [damageClaim_of_live hg hs, hself]
  refine ⟨rfl, ?_, rfl, ?_, ?_, hpins, hwriter⟩
  · rw [hspared]
    exact hg
  · rw [damageEnd_rest hfree]
    intro x hx
    simpa using (List.mem_filter.mp hx).2
  · rw [hspared]
    rfl

/-- A DRAINING record completes where no alias is left in its list, and stays DRAINING with no pin otherwise (R13). -/
theorem damageClaim_draining (hg : (T.entry i).generation = g) (hs : (T.entry i).state = .draining) (hp : PinLaw T) :
    (((T.damageClaim i g).entry i).state = .free ∧ ((T.damageClaim i g).entry i).generation = g + 1 ∧
        ((T.damageClaim i g).entry i).reasons.drained = true) ∨
      ((T.entry i).aliases ≠ [] ∧ ((T.damageClaim i g).entry i).state = .draining ∧
        ((T.damageClaim i g).entry i).generation = g ∧ ((T.damageClaim i g).entry i).pins = 0 ∧
        ((T.damageClaim i g).entry i).aliases ≠ []) := by
  have hpins : ((damageBroken T i).entry i).pins = 0 := pins_breakAll hp .damaged (some i) i
  have hsub := (damageBroken_steady T i i).aliases
  obtain ⟨n, w, l, hspared⟩ := damageBroken_spared T i
  have hfree : ((damageBroken T i).entry i).state ≠ .free := by
    rw [hspared]
    simp [hs]
  have hraise := raiseRecord_entries (damageBroken T i) i .damaged i
  rw [if_pos ⟨rfl, hfree⟩] at hraise
  have hstate : (((damageBroken T i).raiseRecord i .damaged).entry i).state = .draining := by
    rw [hraise, hspared]
    exact hs
  have hgen : (((damageBroken T i).raiseRecord i .damaged).entry i).generation = g := by
    rw [hraise, hspared]
    exact hg
  rw [damageClaim_of_draining hg hs]
  by_cases ha : (((damageBroken T i).raiseRecord i .damaged).entry i).aliases = []
  · have hc : completes (((damageBroken T i).raiseRecord i .damaged).entry i) = true :=
      (completes_iff _).mpr ⟨hstate, by rw [hraise]; exact hpins, ha⟩
    rw [testDraining_self hc]
    exact Or.inl ⟨rfl, congrArg (· + 1) hgen, rfl⟩
  · have hc : completes (((damageBroken T i).raiseRecord i .damaged).entry i) = false := by
      by_contra hc
      obtain ⟨-, -, h0⟩ := (completes_iff _).mp (by simpa using hc)
      exact ha h0
    rw [testDraining_of_not _ _ _ hc]
    refine Or.inr ⟨fun h0 => ha ?_, hstate, hgen, by rw [hraise]; exact hpins, ha⟩
    rw [hraise]
    rw [h0] at hsub
    exact List.sublist_nil.mp hsub

end State

open State in
/-- Settles O35: the claim on each state of its record. -/
theorem damageClaimDamages : Obligations.DamageClaimDamages := by
  intro T i g
  refine ⟨damageClaim_of_none, fun hg hs hnone => ?_, fun hg hs => ⟨_, rfl, ?_, fun hn => ?_, ?_, ?_,
    fun he hp p k h hh hr hne => damageClaim_pinBroken hg hs he hp hh hr hne,
    fun j hj hav ht => damageClaim_entry_of_avoids hj (fun p k y hy hy' => ?_) ht,
    fun hl => damageClaim_live hg hl, fun hd hp => damageClaim_draining hg hd hp⟩⟩
  · have hbroken : damageBroken T i = T := by
      have hnil : T.heldWhere (fun _ _ h => restsOn i h) = [] := heldWhere_eq_nil _ _ fun p k h hh => by
        obtain ⟨h1, h2⟩ := hnone p k h hh
        by_contra hc
        rcases (restsOn_iff i h).mp (by simpa using hc) with hc | hc
        · exact h1 hc.symm
        · exact h2 hc.symm
      unfold damageBroken
      rw [hnil, breakAll_nil]
    have hfree : (T.entry i).state ≠ .free := by rcases hs with hs | hs <;> rw [hs] <;> decide
    have hclaim := damageClaim_of_live hg hs
    rw [hbroken] at hclaim
    rw [hclaim]
    refine ⟨?_, fun j hj => ?_, damageEnd_rest hfree⟩
    · rw [damageEnd_entry hfree, if_pos rfl, hg]
      rfl
    · rw [damageEnd_entry hfree, if_neg hj]
  · exact ((damageBroken_breaks T i).then_sameHolds (damageClaim_sameHolds hg hs)).breaksHolds
  · exact ((damageBroken_breaks T i).then_sameHolds (damageClaim_sameHolds hg hs)).fillOrder hn
  · exact (damageClaim_reasons hg hs).1
  · exact (damageClaim_reasons hg hs).2
  · exact hav p k y hy hy'

end Sys2Proof.Machine
end

section
/-! SUPPORT. The close of a domain and the beginning of a TABLE_RESET (R126, R127, R185). -/

namespace Sys2Proof.Machine

open Tables

namespace State

/-! ## CLOSE_DOMAIN (R126, R127) -/

/-- The tables after the close claim. -/
def closedTables (T : Tables) (d : DomainId) : Tables :=
  let T1 := T.setDomain d { T.domain d with state := .closing }
  T1.breakAll .domainClosed none (T1.heldWhere fun p _ _ => decide (T1.portDomain p = some d))

theorem exec_closeDomain (s : State) (a : DomainArgs) (h : s.listening) :
    exec (.closeDomain a) s = .next ((s.acceptance (.closeDomain a)).acceptCloseDomain a) :=
  exec_command_of_listening s (.closeDomain a) h

theorem exec_closeDomain_of_bad_domain (s : State) (a : DomainArgs) (h : s.listening) (hd : 16 ≤ a.domain.toNat) :
    exec (.closeDomain a) s = .next (s.answered (.closeDomain a) .badArgument []) := by
  simp [exec_closeDomain s a h, acceptCloseDomain, domainOf_eq_none hd]

/-- CLOSE_DOMAIN of a domain number in range: its tests in order, and the close claim. -/
theorem exec_closeDomain_of_domain (s : State) (a : DomainArgs) (d : DomainId) (h : s.listening)
    (hd : a.domain.toNat = d.val) :
    exec (.closeDomain a) s =
      .next (if d = commonDomain then
          s.answered (.closeDomain a) .badArgument (domainEntryBytes d (s.tables.domain d))
        else if (s.tables.domain d).state ≠ .opened then
          s.answered (.closeDomain a) .domainState (domainEntryBytes d (s.tables.domain d))
        else if s.sweep.isSome = true then
          s.answered (.closeDomain a) .sweepBusy (domainEntryBytes d (s.tables.domain d))
        else State.answered { s with tables := closedTables s.tables d, sweep := some ⟨d, 1⟩ } (.closeDomain a) .accepted
          (domainEntryBytes d ((closedTables s.tables d).domain d))) := by
  have hsweep : (s.acceptance (.closeDomain a)).sweep = s.sweep := rfl
  simp only [exec_closeDomain s a h, acceptCloseDomain, domainOf_eq_some hd, acceptance_tables, acceptance_answerDomain,
    hsweep]
  rfl

theorem heldTokensWhere_const (T : Tables) (q : Prop) [Decidable q] (p : PortId) :
    heldTokensWhere T (fun _ _ _ => decide q) p = if q then heldTokens T p else [] := by
  unfold heldTokensWhere heldTokens
  by_cases hq : q
  · rw [if_pos hq]
    refine List.filter_congr fun t _ => ?_
    cases T.hold p t <;> simp [isHeld, hq]
  · rw [if_neg hq, List.filter_eq_nil_iff]
    intro t _
    cases T.hold p t <;> simp [hq]

theorem closedTables_breaks (T : Tables) (d : DomainId) :
    BreaksHolds .domainClosed T (closedTables T d) fun p => if T.portDomain p = some d then heldTokens T p else [] := by
  have h := (Breaks.heldWhere (reason := .domainClosed) (T := T.setDomain d { T.domain d with state := .closing }) none
    fun p _ _ => decide ((T.setDomain d { T.domain d with state := .closing }).portDomain p = some d)).breaksHolds
  have hks : (heldTokensWhere (T.setDomain d { T.domain d with state := .closing }) fun p _ _ =>
      decide ((T.setDomain d { T.domain d with state := .closing }).portDomain p = some d)) =
      fun p => if T.portDomain p = some d then heldTokens T p else [] :=
    funext fun p => heldTokensWhere_const _ (T.portDomain p = some d) p
  rw [hks] at h
  exact h

theorem closedTables_domain (T : Tables) (d : DomainId) : ((closedTables T d).domain d).state = .closing ∧
    ((closedTables T d).domain d).quota = (T.domain d).quota := by
  obtain ⟨h1, h2⟩ := (sameDomains_closed (T.setDomain d { T.domain d with state := .closing })).breaks.breakAll
    .domainClosed none _ (SameDomains.refl _) d
  rw [domain_setDomain_self] at h1 h2
  exact ⟨h1, h2⟩

theorem closedTables_ports (T : Tables) (d : DomainId) : (closedTables T d).ports = T.ports :=
  ((samePorts_closed (T.setDomain d { T.domain d with state := .closing })).breaks.breakAll .domainClosed none _
    (SamePorts.refl _)).ports

/-! ## The beginning claim of a TABLE_RESET (R185) -/

/-- The tables with every HELD entry broken. -/
def allBroken (T : Tables) : Tables := T.breakAll .tableReset none (T.heldWhere fun _ _ _ => true)

theorem dropDeadlines_fold (l : List Nat) (T : Tables) (i : Index) :
    (l.foldl (fun T k => T.modEntry (Fin.ofNat 4096 k) fun e => { e with deadline := none }) T).entry i =
      if i.val ∈ l.map (fun k => k % 4096) then { T.entry i with deadline := none } else T.entry i := by
  induction l generalizing T with
  | nil => rfl
  | cons k l ih =>
    rw [List.foldl_cons, ih, entry_modEntry_blank _ _ _ _ rfl]
    simp only [List.map_cons, List.mem_cons]
    have hk : i = Fin.ofNat 4096 k ↔ i.val = k % 4096 := Fin.ext_iff
    by_cases h1 : i.val ∈ l.map fun k => k % 4096
    · rw [if_pos h1, if_pos (Or.inr h1)]
      split <;> rfl
    · rw [if_neg h1]
      by_cases h2 : i = Fin.ofNat 4096 k
      · rw [if_pos h2, if_pos (Or.inl (hk.mp h2))]
      · rw [if_neg h2, if_neg fun h => h.elim (fun h => h2 (hk.mpr h)) h1]

/-- Every deadline is gone (R185 step 3). -/
theorem dropDeadlines_entry (T : Tables) (i : Index) :
    (dropDeadlines T).entry i = { T.entry i with deadline := none } := by
  unfold dropDeadlines
  rw [dropDeadlines_fold]
  split_ifs with hi
  · rfl
  · have hblank : T.entry i = .blank := by
      unfold entry
      split_ifs with h0
      · rfl
      · by_contra hne
        refine hi (List.mem_map.mpr ⟨i.val, List.mem_map.mpr ⟨_, Table.mem_of_get .blank T.rst i.val hne, rfl⟩, ?_⟩)
        exact Nat.mod_eq_of_lt i.isLt
    rw [hblank]
    rfl

theorem dropDeadlines_rest (T : Tables) : dropDeadlines T = { T with rst := (dropDeadlines T).rst } := by
  unfold dropDeadlines
  generalize T.rst.map Prod.fst = l
  induction l generalizing T with
  | nil => rfl
  | cons k l ih =>
    rw [List.foldl_cons, ih, modEntry_rest]

theorem closeDomains_rest (T : Tables) : closeDomains T = { T with domains := (closeDomains T).domains } := by
  unfold closeDomains
  generalize ordinaryDomains = l
  induction l generalizing T with
  | nil => rfl
  | cons d l ih => rw [List.foldl_cons, ih]; rfl

theorem closeDomains_domain (T : Tables) (d : DomainId) : (closeDomains T).domain d =
    if d = 15 then T.domain d else ⟨.closed, (T.domain d).count, (T.domain d).count⟩ := by
  have hmem : d ∈ ordinaryDomains ↔ d ≠ 15 := by
    revert d
    decide
  have hfold : ∀ (l : List DomainId) (T : Tables), (l.foldl
      (fun T d => T.setDomain d ⟨.closed, (T.domain d).count, (T.domain d).count⟩) T).domain d =
      if d ∈ l then ⟨.closed, (T.domain d).count, (T.domain d).count⟩ else T.domain d := by
    intro l
    induction l with
    | nil => exact fun T => rfl
    | cons c l ih =>
      intro T
      rw [List.foldl_cons, ih, domain_setDomain]
      by_cases h1 : d = c
      · subst h1
        simp
      · simp [h1]
  unfold closeDomains
  rw [hfold]
  by_cases hd : d = 15
  · rw [if_pos hd, if_neg fun h => hmem.mp h hd]
  · rw [if_neg hd, if_pos (hmem.mpr hd)]

theorem beginClearing_entry (T : Tables) (i : Index) :
    (beginClearing T).entry i = { (allBroken T).entry i with deadline := none } := by
  have hent : ∀ U V : Tables, U.rst = V.rst → U.entry i = V.entry i := fun U V h => by unfold entry; rw [h]
  refine Eq.trans (hent _ (dropDeadlines { allBroken T with expiryQueue := [] }) ?_) (dropDeadlines_entry _ i)
  unfold beginClearing
  dsimp only
  rw [closeDomains_rest]
  rfl

theorem beginClearing_rest (T : Tables) : beginClearing T = { allBroken T with
    rst := (beginClearing T).rst
    domains := (beginClearing T).domains
    expiryQueue := []
    notices := (allBroken T).notices.filter isRecordSubject
    portNotices := Vector.replicate 8 ⟨false, false, none⟩
    domainClosed := Vector.replicate 16 false
    bankLoss := Vector.replicate 16 false } := by
  have hdrop := dropDeadlines_rest { allBroken T with expiryQueue := [] }
  have hclose : beginClearing T = { dropDeadlines { allBroken T with expiryQueue := [] } with
      domains := (beginClearing T).domains
      notices := (dropDeadlines { allBroken T with expiryQueue := [] }).notices.filter isRecordSubject
      portNotices := Vector.replicate 8 ⟨false, false, none⟩
      domainClosed := Vector.replicate 16 false
      bankLoss := Vector.replicate 16 false } := closeDomains_rest _
  generalize dropDeadlines { allBroken T with expiryQueue := [] } = D at hdrop hclose
  generalize beginClearing T = C at hclose
  rw [hdrop] at hclose
  rw [hclose]

theorem beginClearing_domain (T : Tables) (d : DomainId) : (beginClearing T).domain d =
    if d = 15 then (allBroken T).domain d else ⟨.closed, ((allBroken T).domain d).count, ((allBroken T).domain d).count⟩ := by
  have hd : ∀ d, (dropDeadlines { allBroken T with expiryQueue := [] }).domain d = (allBroken T).domain d := fun d => by
    rw [dropDeadlines_rest]
    rfl
  refine (closeDomains_domain _ d).trans ?_
  simp only [← hd]
  rfl

theorem allBroken_breaks (T : Tables) : Breaks .tableReset T (allBroken T) (heldTokens T) :=
  (Breaks.heldWhere none fun _ _ _ => true).congr fun p =>
    (heldTokensWhere_const T True p).trans (if_pos trivial)

theorem mem_heldTokens (T : Tables) (p : PortId) (t : Token) : t ∈ heldTokens T p ↔ isHeld (T.hold p t) = true := by
  have hall : t ∈ allTokens := by
    revert t
    decide
  exact (List.mem_filter).trans (and_iff_right hall)

theorem allBroken_not_held (T : Tables) (p : PortId) (t : Token) : isHeld ((allBroken T).hold p t) = false := by
  rw [(allBroken_breaks T).hold]
  split_ifs with h
  · rfl
  · exact Bool.not_eq_true _ ▸ fun e => h ((mem_heldTokens T p t).mpr e)

/-- No pin is left where pins kept their law. -/
theorem allBroken_pins {T : Tables} (h : PinLaw T) (i : Index) : ((allBroken T).entry i).pins = 0 := by
  refine (((pinLaw_iff _).mp (pinLaw_breakAll h .tableReset none _)) i).1.trans (restCount_eq_zero fun p t y hy => ?_)
  have := allBroken_not_held T p t
  unfold allBroken at this
  rw [hy] at this
  cases this

/-- No writer is left where writers kept their law. -/
theorem allBroken_writer {T : Tables} (h : WriterLaw T) (i : Index) : ((allBroken T).entry i).writer = none := by
  rcases (Steady.breakAll (A := fun _ => True) .tableReset none (T.heldWhere fun _ _ _ => true) (T := T) i).writer
    with hs | hs
  · cases hwi : (T.entry i).writer with
    | none => exact hs.trans hwi
    | some p =>
      obtain ⟨t, y, hy, hacc, rfl⟩ := h i p hwi
      exact breakAll_writer ((mem_heldWhere T _ (p, t)).mpr ⟨y, hy, rfl⟩) hy hacc
  · exact hs

theorem allBroken_fillOrder {s : State} (h : s.FillLaw) : (allBroken s.tables).fillOrder = [] := by
  obtain ⟨hn, hmem⟩ := h
  rw [(allBroken_breaks s.tables).fillOrder hn, List.filter_eq_nil_iff]
  intro x hx
  simpa using (mem_heldTokens s.tables x.1 x.2).mpr ((hmem x.1 x.2).mp hx)

/-- PORT, DOMAIN and BANK subjects owe nothing (R185 step 4). -/
theorem beginClearing_owes (T : Tables) {x : Subject} (hx : isRecordSubject x = false) :
    owes (beginClearing T) x = false ∧ x ∉ (beginClearing T).notices := by
  have hrest := beginClearing_rest T
  have hport := congrArg Tables.portNotices hrest
  have hdomain := congrArg Tables.domainClosed hrest
  have hbank := congrArg Tables.bankLoss hrest
  have hnotices := congrArg Tables.notices hrest
  dsimp only at hport hdomain hbank hnotices
  refine ⟨?_, fun hm => ?_⟩
  · cases x with
    | record i => cases hx
    | port p =>
      unfold owes portNotice
      dsimp only
      rw [hport, pick_replicate]
      rfl
    | domain d =>
      unfold owes
      dsimp only
      rw [hdomain, pick_replicate]
    | bank b =>
      unfold owes
      dsimp only
      rw [hbank, pick_replicate]
  · rw [hnotices] at hm
    rw [(List.mem_filter.mp hm).2] at hx
    cases hx

theorem exec_tableReset {s : State} (h : s.listening) : exec .tableReset s = .next
    { s.inProgress .tableReset .walking none [] with
      partState := .clearing, clearWalk := some 1, sweep := none, tables := beginClearing s.tables } :=
  exec_command_of_listening s .tableReset h

end State

open State in
/-- Settles O21: the tests in their order, and the close claim. -/
theorem closeDomainCloses : Obligations.CloseDomainCloses := by
  intro s a h
  refine ⟨exec_closeDomain_of_bad_domain s a h, fun d hd => ?_⟩
  have hexec := exec_closeDomain_of_domain s a d h hd
  refine ⟨fun hd15 => ?_, fun hd15 hs => ?_, fun hd15 hs hw => ?_, fun hd15 hs hw => ?_⟩
  · rw [hexec, if_pos (c := d = commonDomain) hd15]
  · rw [hexec, if_neg (c := d = commonDomain) hd15, if_pos hs]
  · rw [hexec, if_neg (c := d = commonDomain) hd15, if_neg fun e => e hs, if_pos (Option.isSome_iff_ne_none.mpr hw)]
  · refine ⟨closedTables s.tables d, ?_, (closedTables_domain s.tables d).1, (closedTables_domain s.tables d).2,
      closedTables_ports s.tables d, closedTables_breaks s.tables d⟩
    rw [hexec, if_neg (c := d = commonDomain) hd15, if_neg fun e => e hs, if_neg (by simp [hw])]

open State in
/-- Settles O16: the beginning claim of a TABLE_RESET. -/
theorem tableResetBegins : Obligations.TableResetBegins := by
  intro s h
  have hrest := beginClearing_rest s.tables
  have hsame : (allBroken s.tables).ports = s.tables.ports := (allBroken_breaks s.tables).ports
  have hholds : ∀ p k, (beginClearing s.tables).hold p k = (allBroken s.tables).hold p k := fun p k => by
    rw [hrest]
    rfl
  have hdomains := (sameDomains_closed s.tables).breaks.breakAll .tableReset none (s.tables.heldWhere fun _ _ _ => true)
    (SameDomains.refl s.tables)
  refine ⟨_, exec_tableReset h, rfl, rfl, rfl, fun p k => ?_, ?_, fun hp i => ?_, fun hw i => ?_, fun hf => ?_, ?_,
    fun i => ?_, fun x hx => ?_, fun p => ?_, fun d hd => ?_, ?_, ?_, ?_, rfl⟩
  · exact (congrArg isHeld (hholds p k)).trans (allBroken_not_held s.tables p k)
  · refine (breaksHolds_iff ..).mpr fun p => ⟨fun t => (hholds p t).trans ((allBroken_breaks s.tables).hold p t), ?_⟩
    refine Eq.trans ?_ ((allBroken_breaks s.tables).queue p)
    show (beginClearing s.tables).queueOf p = _
    rw [hrest]
    rfl
  · show ((beginClearing s.tables).entry i).pins = 0
    rw [beginClearing_entry]
    exact allBroken_pins hp i
  · show ((beginClearing s.tables).entry i).writer = none
    rw [beginClearing_entry]
    exact allBroken_writer hw i
  · have hempty := allBroken_fillOrder hf
    show (beginClearing s.tables).fillOrder = []
    exact (congrArg Tables.fillOrder hrest).trans hempty
  · exact congrArg Tables.expiryQueue hrest
  · show ((beginClearing s.tables).entry i).deadline = none
    rw [beginClearing_entry]
  · exact beginClearing_owes s.tables hx
  · show ((beginClearing s.tables).portNotice p).cause = none
    unfold portNotice
    rw [congrArg Tables.portNotices hrest, pick_replicate]
  · show ((beginClearing s.tables).domain d).state = _ ∧ ((beginClearing s.tables).domain d).quota =
      ((beginClearing s.tables).domain d).count
    rw [beginClearing_domain, if_neg hd]
    exact ⟨rfl, rfl⟩
  · show ((beginClearing s.tables).domain 15).state = _
    rw [beginClearing_domain, if_pos rfl]
    exact (hdomains 15).1
  · show ((beginClearing s.tables).domain 15).quota = _
    rw [beginClearing_domain, if_pos rfl]
    exact (hdomains 15).2
  · show (beginClearing s.tables).ports = _
    rw [hrest]
    exact hsame

end Sys2Proof.Machine
end

section
/-! SUPPORT. The completion of a port reset (R72, R138). -/

namespace Sys2Proof.Machine

open Tables

namespace State

variable {T : Tables}

/-! ## One entry (R72) -/

theorem resetEntry_held {p : PortId} {t : Token} {h : HeldHold} (hh : T.hold p t = .held h) :
    resetEntry p T t = testRecords none (T.unpin p t h .empty) h := by
  unfold resetEntry
  rw [hh]

theorem resetEntry_broken {p : PortId} {t : Token} {r : BreakReason} {w : Bool} (hh : T.hold p t = .broken r w) :
    resetEntry p T t = (T.withdraw p t).setHold p t .empty := by
  unfold resetEntry
  rw [hh]

theorem resetEntry_reserved {p : PortId} {t : Token} (hh : T.hold p t = .reserved) :
    resetEntry p T t = T.setHold p t .empty := by
  unfold resetEntry
  rw [hh]

theorem resetEntry_empty {p : PortId} {t : Token} (hh : T.hold p t = .empty) : resetEntry p T t = T := by
  unfold resetEntry
  rw [hh]

/-- The entry becomes EMPTY, and no other does. -/
theorem resetEntry_hold (p p' : PortId) (t t' : Token) :
    (resetEntry p T t).hold p' t' = if p' = p ∧ t' = t then .empty else T.hold p' t' := by
  cases hh : T.hold p t with
  | held h =>
    rw [resetEntry_held hh, ((sameHolds_closed _).testRecords none h (SameHolds.refl _)).hold, unpin_hold]
  | broken r w =>
    rw [resetEntry_broken hh, hold_setHold]
    rfl
  | reserved => rw [resetEntry_reserved hh, hold_setHold]
  | empty =>
    rw [resetEntry_empty hh]
    split_ifs with h
    · rw [h.1, h.2, hh]
    · rfl

theorem resetEntry_queueOf (p p' : PortId) (t : Token) : (resetEntry p T t).queueOf p' = T.queueOf p' ∨
    (p' = p ∧ (resetEntry p T t).queueOf p' = (T.queueOf p).filter fun f => !brokenFrameOf t f) := by
  cases hh : T.hold p t with
  | held h =>
    rw [resetEntry_held hh, ((sameHolds_closed _).testRecords none h (SameHolds.refl _)).queueOf, unpin_queueOf]
    exact Or.inl rfl
  | broken r w =>
    have hq : (resetEntry p T t).queueOf p' = (T.withdraw p t).queueOf p' := by
      rw [resetEntry_broken hh]
      rfl
    rw [hq, queueOf_withdraw]
    by_cases hp : p' = p
    · exact Or.inr ⟨hp, if_pos hp⟩
    · exact Or.inl (if_neg hp)
  | reserved =>
    rw [resetEntry_reserved hh]
    exact Or.inl rfl
  | empty =>
    rw [resetEntry_empty hh]
    exact Or.inl rfl

/-- The waiting BROKEN frame of a BROKEN entry is withdrawn (R170). -/
theorem resetEntry_withdraws {p : PortId} {t : Token} {r : BreakReason} {w : Bool} (hh : T.hold p t = .broken r w) :
    ∀ f ∈ (resetEntry p T t).queueOf p, brokenFrameOf t f = false := by
  have hq : (resetEntry p T t).queueOf p = (T.withdraw p t).queueOf p := by
    rw [resetEntry_broken hh]
    rfl
  rw [hq, queueOf_withdraw, if_pos rfl]
  intro f hf
  simpa using (List.mem_filter.mp hf).2

/-! ## All entries of the port -/

/-- The tables with some entries of the port emptied. -/
def emptied (p : PortId) (l : List Token) (T : Tables) : Tables := l.foldl (resetEntry p) T

theorem emptied_hold (p p' : PortId) (l : List Token) (T : Tables) (t : Token) :
    (emptied p l T).hold p' t = if p' = p ∧ t ∈ l then .empty else T.hold p' t := by
  unfold emptied
  induction l generalizing T with
  | nil => simp
  | cons u l ih =>
    rw [List.foldl_cons, ih, resetEntry_hold]
    by_cases hp : p' = p
    · by_cases htu : t = u
      · simp [hp, htu]
      · simp [hp, htu]
    · simp [hp]

theorem emptied_queueOf_ne {p p' : PortId} (hp : p' ≠ p) (l : List Token) (T : Tables) :
    (emptied p l T).queueOf p' = T.queueOf p' := by
  unfold emptied
  induction l generalizing T with
  | nil => rfl
  | cons u l ih =>
    rw [List.foldl_cons, ih]
    exact (resetEntry_queueOf p p' u).resolve_right fun h => hp h.1

theorem emptied_queue_subset (p : PortId) (l : List Token) (T : Tables) :
    ∀ f ∈ (emptied p l T).queueOf p, f ∈ T.queueOf p := by
  unfold emptied
  induction l generalizing T with
  | nil => exact fun f hf => hf
  | cons u l ih =>
    intro f hf
    have h1 := ih (resetEntry p T u) f hf
    rcases resetEntry_queueOf (T := T) p p u with h | ⟨-, h⟩
    · exact h ▸ h1
    · rw [h] at h1
      exact (List.mem_filter.mp h1).1

theorem emptied_answers (p : PortId) (l : List Token) (T : Tables) (g : Tag) (v : Verdict)
    (h : OutFrame.answer g v ∈ T.queueOf p) : OutFrame.answer g v ∈ (emptied p l T).queueOf p := by
  unfold emptied
  induction l generalizing T with
  | nil => exact h
  | cons u l ih =>
    refine ih (resetEntry p T u) ?_
    rcases resetEntry_queueOf (T := T) p p u with hq | ⟨-, hq⟩
    · rw [hq]
      exact h
    · rw [hq]
      exact List.mem_filter.mpr ⟨h, rfl⟩

theorem emptied_withdraws (p : PortId) (l : List Token) (T : Tables) {k : Token} (hk : k ∈ l) {r : BreakReason}
    {w : Bool} (hh : T.hold p k = .broken r w) : ∀ f ∈ (emptied p l T).queueOf p, brokenFrameOf k f = false := by
  unfold emptied
  induction l generalizing T with
  | nil => exact absurd hk List.not_mem_nil
  | cons u l ih =>
    by_cases hku : k = u
    · subst hku
      exact fun f hf => resetEntry_withdraws hh f (emptied_queue_subset p l _ f hf)
    · refine ih (resetEntry p T u) ((List.mem_cons.mp hk).resolve_left hku) ?_
      rw [resetEntry_hold, if_neg fun e => hku e.2]
      exact hh

/-- Subjects only join the Notice List. -/
def NoticesStay (T T' : Tables) : Prop := ∀ x ∈ T.notices, x ∈ T'.notices

theorem noticesStay_closed (T0 : Tables) : HoldClosed (NoticesStay T0) where
  setEntry i e h _ := by
    rw [setEntry_rest]
    exact h
  raiseRecord i r h := fun x hx => by
    unfold Tables.raiseRecord
    dsimp only
    split_ifs
    · exact h x hx
    · exact List.mem_append_left _ (h x hx)
    · rw [setEntry_rest]
      exact h x hx
  count _ _ h := h
  freeList _ h := h
  expiryQueue _ h := h
  setHold _ _ _ h := h
  outbound _ h := h
  fillOrder _ h := h

/-- A port whose entries are empty, made ACTIVE with its notice raised. -/
def activated (p : PortId) (U : Tables) : Tables :=
  (U.setPort p { U.port p with state := .active }).raiseResetDone p

theorem completeReset_eq (p : PortId) (T : Tables) : T.completeReset p = activated p (emptied p allTokens T) := rfl

theorem activated_port (p : PortId) (U : Tables) : (activated p U).port p = { U.port p with state := .active } :=
  pick_place_self _ _ _

theorem activated_port_ne {p p' : PortId} (h : p' ≠ p) (U : Tables) : (activated p U).port p' = U.port p' :=
  pick_place_ne _ _ _ _ h

theorem activated_portNotice (p : PortId) (U : Tables) :
    (activated p U).portNotice p = { U.portNotice p with resetDone := true } :=
  pick_place_self _ _ _

theorem activated_notices (p : PortId) (U : Tables) : (activated p U).notices =
    if (U.portNotice p).isEmpty then U.notices ++ [.port p] else U.notices := rfl

theorem activated_hold (p p' : PortId) (k : Token) (U : Tables) : (activated p U).hold p' k = U.hold p' k := rfl

theorem activated_queueOf (p p' : PortId) (U : Tables) : (activated p U).queueOf p' = U.queueOf p' := rfl

theorem exec_portResetCompletion {s : State} {p : PortId} (hp : (s.tables.port p).state = .resetting)
    (hs : ∀ g, s.slot p g = none) :
    exec (.portResetCompletion p) s = .next { s with tables := s.tables.completeReset p } :=
  congrArg Host.Outcome.next (if_pos ⟨hp, (noTags_iff s p).mpr hs⟩)

end State

open State in
/-- Settles O19: what the completion of a port reset leaves. -/
theorem portResetCompletes : Obligations.PortResetCompletes := by
  intro p s hp hs
  have hall : ∀ t : Token, t ∈ allTokens := by decide
  have hports := (samePorts_closed s.tables).resetEntries p allTokens (SamePorts.refl s.tables)
  have hstay : NoticesStay s.tables (emptied p allTokens s.tables) :=
    (noticesStay_closed s.tables).resetEntries p allTokens fun x hx => hx
  have hhold := fun p' k => emptied_hold p p' allTokens s.tables k
  have hwith := fun k (r : BreakReason) w => emptied_withdraws (r := r) (w := w) p allTokens s.tables (hall k)
  have hansw := emptied_answers p allTokens s.tables
  have hother := fun p' (h : p' ≠ p) => emptied_queueOf_ne h allTokens s.tables
  have hport : (emptied p allTokens s.tables).port = s.tables.port := funext hports.port
  have hnotice : (emptied p allTokens s.tables).portNotice p = s.tables.portNotice p :=
    congrArg (pick · p) hports.portNotices
  have hexec := exec_portResetCompletion hp hs
  rw [completeReset_eq] at hexec
  generalize emptied p allTokens s.tables = U at *
  refine ⟨_, hexec, fun k => ?_, fun p' k hp' => ?_, ?_, fun p' hp' => ?_, ?_, ?_, ?_,
    fun x hx => ?_, fun he => ?_, fun k r w hk => ?_, fun g v h => ?_, fun p' hp' => ?_, rfl⟩
  · exact (activated_hold p p k U).trans ((hhold p k).trans (if_pos ⟨rfl, hall k⟩))
  · exact (activated_hold p p' k U).trans ((hhold p' k).trans (if_neg fun e => hp' e.1))
  · exact (activated_port p U).trans (by rw [hport])
  · exact (activated_port_ne hp' U).trans (by rw [hport])
  · exact congrArg PortNotice.resetDone (activated_portNotice p U)
  · exact (congrArg PortNotice.fenced (activated_portNotice p U)).trans
      (congrArg PortNotice.fenced hnotice :)
  · exact (congrArg PortNotice.cause (activated_portNotice p U)).trans
      (congrArg PortNotice.cause hnotice :)
  · show x ∈ (activated p U).notices
    rw [activated_notices]
    split
    · exact List.mem_append_left _ (hstay x hx)
    · exact hstay x hx
  · show Subject.port p ∈ (activated p U).notices
    rw [activated_notices, hnotice, if_pos he]
    exact List.mem_append_right _ (List.mem_singleton.mpr rfl)
  · exact hwith k r w hk
  · exact hansw g v h
  · exact (activated_queueOf p p' U).trans (hother p' hp')

end Sys2Proof.Machine
end

section
/-! SUPPORT. A check's slot takes the result of its body read: an alias's read that passes its tests asks for the
target's read (R31, R152). -/

namespace Sys2Proof.Machine

open State

namespace State

variable {s u : State}

/-! ## The state in which the slot takes its result -/

/-- What a decision reads is as it was before the freed place was granted. -/
theorem placeGranted_same {b : BankId} {job : Job} {rest : List Job} (hq : (s.bank b).queue = job :: rest)
    (hu : PlaceGranted s u b rest) :
    u = s.leaveHead b ∧ u.tables = s.tables ∧ u.partState = s.partState ∧
      (u.bank b).controller = (s.bank b).controller ∧ ∀ b', b' ≠ b → u.bank b' = s.bank b' := by
  have h := leaveHead_of_placeGranted s u b job rest hq hu
  obtain ⟨hcontrol, -, hother⟩ := leaveHead_bank s b
  subst h
  refine ⟨rfl, leaveHead_tables s b, ?_, hcontrol, hother⟩
  rw [leaveHead_rest]

theorem earlyDeny_congr (hT : u.tables = s.tables) (hp : u.partState = s.partState) :
    u.earlyDeny = s.earlyDeny := by
  funext p x n j agreed
  simp only [earlyDeny, hT, hp]

theorem firstDeny_early (s : State) {p : PortId} {x : CheckSlot} {j : Index} (h : Concerns x j) :
    firstDeny (s.earlyTests p x) = s.earlyDeny p x x.named.index j (codesAgree x) := by
  have hfirst := firstDeny_earlyTests (s := s) (p := p) h []
  rw [List.append_nil, firstDeny_nil, Option.or_none] at hfirst
  exact hfirst

/-- The early tests of an alias check all pass. -/
theorem earlyDeny_none {p : PortId} {x : CheckSlot} {n j : Index} (hclearing : s.partState ≠ .clearing)
    (hopen : ((s.tables.portDomain p).map fun d => (s.tables.domain d).state) = some .opened)
    (hlive : (s.tables.entry n).state = .live) (hgen : (s.tables.entry n).generation = x.request.generation)
    (hdomain : (s.tables.entry n).domain = some 15 ∨
      ∃ d, (s.tables.entry n).domain = some d ∧ s.tables.portDomain p = some d)
    (htarget : (s.tables.entry j).state = .live) : s.earlyDeny p x n j true = none := by
  have hadmits : ¬ ((s.tables.entry n).domain ≠ some 15 ∧
      ((s.tables.entry n).domain = none ∨ (s.tables.entry n).domain ≠ s.tables.portDomain p)) := by
    rcases hdomain with h | ⟨d, h, hp⟩
    · simp [h]
    · simp [h, hp]
  simp only [earlyDeny, if_neg hclearing, hopen, hlive, hgen, if_neg hadmits, htarget]
  simp

/-! ## The slot takes its result -/

theorem slotTakes_of_last {p : PortId} {g : Tag} {x : CheckSlot} {tr : ReadRecord} (h : s.slot p g = some x)
    (ht : x.targetRead = some tr) (r : ReadResult) :
    s.slotTakes p g r = s.decideSlot p g { x with targetRead := some { tr with result := some r } } := by
  unfold slotTakes
  simp only [h, ht]

theorem slotTakes_of_data {p : PortId} {g : Tag} {x : CheckSlot} (h : s.slot p g = some x)
    (ht : x.targetRead = none) (hk : x.kind = .dataKind) (r : ReadResult) :
    s.slotTakes p g r = s.decideSlot p g { x with named := { x.named with result := some r } } := by
  unfold slotTakes
  simp only [h, ht, hk]

/-- An alias's own read: the reason of its tests decides, and without one the target's read is asked for. -/
theorem slotTakes_of_alias {p : PortId} {g : Tag} {x : CheckSlot} {j : Index} (h : s.slot p g = some x)
    (ht : x.targetRead = none) (hk : x.kind = .aliasKind) (hj : x.target = some j) (r : ReadResult) :
    s.slotTakes p g r = match s.earlyDeny p x x.named.index j r.agreed with
      | some _ => s.decideSlot p g { x with named := { x.named with result := some r } }
      | none =>
        (s.setSlot p g (some { x with
          named := { x.named with result := some r }
          targetRead := some ⟨j, (s.tables.entry j).generation, none⟩ })).askSlot p g
            (.bodyRead j (s.tables.entry j).generation (.slot p g)) := by
  have hconcerns : Concerns { x with named := { x.named with result := some r } } j :=
    ⟨fun h => (nomatch hk.symm.trans h), fun _ => hj⟩
  have hcodes : codesAgree { x with named := { x.named with result := some r } } = r.agreed :=
    codesAgree_of_one rfl ht
  have hindex : dataIndexOf { x with named := { x.named with result := some r } } = j := hconcerns.index
  have hearly := firstDeny_early s (p := p) hconcerns
  rw [hcodes] at hearly
  unfold slotTakes
  simp only [h, ht, hk, targetReadOf]
  rw [hk] at hindex hearly
  simp only [ht] at hindex hearly
  rw [hearly, hindex]
  rfl

/-- A completion claim that has changed slots, banks and storage, up to its last choice. -/
theorem choicePoint_slots {v : State} {l : Vector (Vector (Option CheckSlot) 16) 8}
    (hv : v = { u with slots := l, banks := v.banks, storage := v.storage }) (b : BankId) :
    let t := v.choicePoint b
    (∀ p g, t.slot p g = v.slot p g) ∧
      t = { u with slots := t.slots, banks := t.banks, storage := t.storage } := by
  intro t
  have hrest : t = { v with banks := t.banks, storage := t.storage } := choicePoint_rest v b
  have hslots : t.slots = v.slots := by rw [hrest]
  refine ⟨fun p g => ?_, hrest.trans ?_⟩
  · unfold slot
    rw [hslots]
  · have hl : t.slots = l := hslots.trans (congrArg State.slots hv)
    rw [hl]
    exact congrArg (fun w : State => { w with banks := t.banks, storage := t.storage }) hv

end State

/-- Settles O34: the read of the target joins its bank's queue, or the slot waits at that bank. -/
theorem aliasReadAsksForTarget : Obligations.AliasReadAsksForTarget := by
  intro s u b p g i j gen rest x y hbusy hq hu hx hk ht hj hy hagreed hclearing hopen hlive hgen hdomain htarget job
  obtain ⟨hleave, htables, hpart, hcontrol, -⟩ := State.placeGranted_same hq hu
  have hexec := State.exec_bodyReadCompletion hbusy hq
  have hpass : u.earlyDeny p x x.named.index j (s.readBody i).agreed = none := by
    rw [hagreed, State.earlyDeny_congr htables hpart]
    exact State.earlyDeny_none hclearing hopen hlive hgen hdomain htarget
  rw [← hleave, State.issuerTakes, State.slotTakes_of_alias hx ht hk hj, hpass] at hexec
  dsimp only at hexec
  rw [htables] at hexec
  subst hy
  generalize hz : ({ x with
    named := { x.named with result := some (s.readBody i) }
    targetRead := some ⟨j, (s.tables.entry j).generation, none⟩ } : CheckSlot) = z at hexec
  have hphase : ∀ ph, ({ x with
      named := { x.named with result := some (s.readBody i) }
      targetRead := some ⟨j, (s.tables.entry j).generation, none⟩
      phase := ph } : CheckSlot) = { z with phase := ph } := fun ph => by rw [← hz]
  have hslot := State.slot_setSlot_self u p g (some z)
  by_cases hroom : (u.bank (bankOf j)).queue.length < 12
  · have hask := State.askSlot_place (job := job) hslot hroom
    rw [State.setSlot_setSlot] at hask
    rw [hask] at hexec
    rw [if_pos hroom, hphase]
    obtain ⟨hslots, hrest⟩ := State.choicePoint_slots (u := u)
      (v := (u.setSlot p g (some { z with phase := .reading })).joinQueue job) (State.joinQueue_rest _ _) b
    refine ⟨_, hexec, ?_, fun p' g' hne => ?_, ?_, hrest⟩
    · rw [hslots, State.joinQueue_slot]
      exact State.slot_setSlot_self _ _ _ _
    · rw [hslots, State.joinQueue_slot]
      exact State.slot_setSlot_other _ _ hne
    · exact State.jobAsked_join (hcontrol.trans hbusy) hroom rfl rfl rfl
  · have hfull := Nat.le_of_not_lt hroom
    have hask := State.askSlot_full (job := job) hslot hfull
    rw [State.setSlot_setSlot] at hask
    rw [hask] at hexec
    rw [if_neg hroom, hphase]
    obtain ⟨hslots, hrest⟩ := State.choicePoint_slots (u := u)
      (v := (u.setSlot p g (some { z with phase := .admitting })).setBank (bankOf job.index)
        { u.bank (bankOf job.index) with
          slotsWaiting := place (u.bank (bankOf job.index)).slotsWaiting p
            (pick (u.bank (bankOf job.index)).slotsWaiting p ++ [g]) }) rfl b
    refine ⟨_, hexec, ?_, fun p' g' hne => ?_, ?_, hrest⟩
    · exact (hslots p g).trans (State.slot_setSlot_self _ _ _ _)
    · exact (hslots p' g').trans (State.slot_setSlot_other _ _ hne)
    · exact State.jobAsked_wait (job := job) hfull rfl (fun _ => rfl) rfl rfl

end Sys2Proof.Machine
end

section
/-! SUPPORT. An allowed HOLD: the answer, and what the fill does to the entry, the pins and the writer (R39, R40). -/

namespace Sys2Proof.Machine

open State

namespace Tables

variable (T : Tables)

theorem entry_pinUp (i : Index) {j : Index} (hj : j ≠ 0) :
    (T.pinUp i).entry j = { T.entry j with pins := if j = i then (T.entry j).pins + 1 else (T.entry j).pins } := by
  unfold pinUp
  rw [entry_modEntry]
  by_cases h : j = i
  · rw [if_pos ⟨h, h ▸ hj⟩, if_pos h]
  · rw [if_neg fun e => h e.1, if_neg h]

theorem entry_setWriter (i : Index) (w : Option PortId) {j : Index} (hj : j ≠ 0) :
    (T.setWriter i w).entry j = { T.entry j with writer := if j = i then w else (T.entry j).writer } := by
  unfold setWriter
  rw [entry_modEntry]
  by_cases h : j = i
  · rw [if_pos ⟨h, h ▸ hj⟩, if_pos h]
  · rw [if_neg fun e => h e.1, if_neg h]

/-- The status entries after a fill: a pin more on the records concerned, and the writer of a SOLE one. -/
theorem fillHold_entry (p : PortId) (t : Token) (x : CheckSlot) {j : Index} (hj : j ≠ 0) :
    (State.fillHold T p t x).entry j = { T.entry j with
      pins := if j = x.named.index ∨ j = dataIndexOf x then (T.entry j).pins + 1 else (T.entry j).pins
      writer := if j = dataIndexOf x ∧ x.request.access = .write ∧ (dataBodyOf x).map Body.sharing = some .sole then
          some p
        else (T.entry j).writer } := by
  have hpins : ∀ U : Tables, (∀ i, U.entry i = T.entry i) →
      (if dataIndexOf x = x.named.index then U.pinUp x.named.index
        else (U.pinUp x.named.index).pinUp (dataIndexOf x)).entry j =
      { T.entry j with
        pins := if j = x.named.index ∨ j = dataIndexOf x then (T.entry j).pins + 1 else (T.entry j).pins } := by
    intro U hU
    by_cases he : dataIndexOf x = x.named.index
    · rw [if_pos he, entry_pinUp _ _ hj, hU]
      simp only [he, or_self]
    · rw [if_neg he, entry_pinUp _ _ hj, entry_pinUp _ _ hj, hU]
      by_cases h1 : j = x.named.index
      · rw [if_pos h1, if_neg fun e => he (e.symm.trans h1), if_pos (Or.inl h1)]
      · by_cases h2 : j = dataIndexOf x
        · rw [if_neg h1, if_pos h2, if_pos (Or.inr h2)]
        · rw [if_neg h1, if_neg h2, if_neg fun e => e.elim h1 h2]
  have hp := hpins (T.setHold p t (.held (heldOf T p x))) fun i => setHold_entry _ _ _ _ _
  rw [fillHold_eq]
  show (T.heldAndPinned p t x).entry j = _
  unfold heldAndPinned
  by_cases hw : x.request.access = .write ∧ (dataBodyOf x).map Body.sharing = some .sole
  · dsimp only
    rw [if_pos hw, entry_setWriter _ _ _ hj]
    refine (congrArg (fun e : StatusEntry => { e with
      writer := if j = dataIndexOf x then some p else e.writer }) hp).trans ?_
    simp only [hw, and_self, and_true]
  · dsimp only
    rw [if_neg hw]
    refine hp.trans ?_
    rw [if_neg (c := j = dataIndexOf x ∧ _) fun e => hw e.2]

theorem modEntry_rest_of_rest {T U : Tables} (hU : U = { T with rst := U.rst, holds := U.holds }) (i : Index)
    (f : StatusEntry → StatusEntry) :
    U.modEntry i f = { T with rst := (U.modEntry i f).rst, holds := (U.modEntry i f).holds } := by
  have hV : U.modEntry i f = { U with rst := (U.modEntry i f).rst } := modEntry_rest U i f
  generalize U.modEntry i f = V at hV
  have hholds : V.holds = U.holds := by rw [hV]
  rw [hholds]
  exact hV.trans (congrArg (fun W : Tables => { W with rst := V.rst }) hU)

theorem fillHold_rest (p : PortId) (t : Token) (x : CheckSlot) : State.fillHold T p t x =
    { T with
      rst := (State.fillHold T p t x).rst
      holds := (State.fillHold T p t x).holds
      fillOrder := T.fillOrder ++ [(p, t)] } := by
  have hset : T.heldAndPinned p t x = { T with
      rst := (T.heldAndPinned p t x).rst, holds := (T.heldAndPinned p t x).holds } := by
    have h1 := modEntry_rest_of_rest (T := T) (U := T.setHold p t (.held (heldOf T p x))) rfl (heldOf T p x).index
      fun e => { e with pins := e.pins + 1 }
    have h2 := modEntry_rest_of_rest h1 (heldOf T p x).resolved fun e => { e with pins := e.pins + 1 }
    unfold heldAndPinned setWriter pinUp
    dsimp only
    split_ifs
    · exact modEntry_rest_of_rest h1 _ _
    · exact modEntry_rest_of_rest h2 _ _
    · exact h1
    · exact h2
  have hfill := fillHold_eq T p t x
  have horder := fillHold_fillOrder T p t x
  generalize T.heldAndPinned p t x = U at hset hfill
  rw [hfill] at horder ⊢
  exact horder ▸ congrArg (fun W : Tables => { W with fillOrder := U.fillOrder ++ [(p, t)] }) hset

end Tables

namespace State

/-- The data that an ALLOW of a DATA record or of an alias goes by. -/
structure Decided (x : CheckSlot) (j : Index) (d : DataBody) (start : Nat) (tag : BitVec 16) : Prop where
  index : dataIndexOf x = j
  body : dataBodyOf x = some (.dataBody d)
  address : allowAddress x = BitVec.ofNat 48 (start + x.request.offset.toNat)
  tag : (namedBody x).map Body.tag = some tag

theorem decided_data {x : CheckSlot} {d : DataBody} {c : BitVec 16} (hk : x.kind = .dataKind)
    (hr : x.named.result = some ⟨.dataBody d, c, true⟩) : Decided x x.named.index d d.base.toNat d.tag := by
  have hnamed : namedBody x = some (.dataBody d) := by rw [namedBody, hr]; rfl
  have hbody : dataBodyOf x = some (.dataBody d) := by simp only [dataBodyOf, hk, hnamed]
  refine ⟨by simp only [dataIndexOf, hk], hbody, ?_, by rw [hnamed]; rfl⟩
  simp only [allowAddress, hk, hnamed, Option.map_some, Option.getD_some, Nat.zero_add]
  rfl

theorem decided_alias {x : CheckSlot} {a : AliasBody} {d : DataBody} {c c' : BitVec 16} {j : Index} {g : Generation}
    (hk : x.kind = .aliasKind) (hj : x.target = some j) (hr : x.named.result = some ⟨.aliasBody a, c', true⟩)
    (ht : x.targetRead = some ⟨j, g, some ⟨.dataBody d, c, true⟩⟩) :
    Decided x j d (d.base.toNat + a.offset.toNat) a.tag := by
  have hnamed : namedBody x = some (.aliasBody a) := by rw [namedBody, hr]; rfl
  have hbody : dataBodyOf x = some (.dataBody d) := by simp only [dataBodyOf, hk, ht]; rfl
  refine ⟨by simp only [dataIndexOf, hk, hj, Option.getD_some], hbody, ?_, by rw [hnamed]; rfl⟩
  simp only [allowAddress, hk, hnamed, hbody, Option.map_some, Option.getD_some]
  rfl

end State

open State in
/-- Settles O33: the data that the answer and the fill go by are those of the DATA record concerned. -/
theorem allowAndFill : Obligations.AllowAndFill := by
  intro T p k x bnd d c j start tag hb h
  have hdecided : Decided x j d start tag := by
    rcases h with ⟨hk, -, hr, rfl, rfl, rfl⟩ | ⟨a, c', g, hk, hj, hr, ht, rfl, rfl⟩
    · exact decided_data hk hr
    · exact decided_alias hk hj hr ht
  obtain ⟨hindex, hbody, haddress, htag⟩ := hdecided
  refine ⟨?_, ?_, fun p' k' hne => ?_, fun i hi => ?_, Tables.fillHold_fillOrder T p k x⟩
  · rw [allowVerdict, haddress, htag]
    rfl
  · rw [Tables.fillHold_hold, if_pos ⟨rfl, rfl⟩, heldOf, hindex, holdLimit, hb]
  · rw [Tables.fillHold_hold, if_neg fun e => hne.elim (· e.1) (· e.2)]
  · rw [Tables.fillHold_entry T p k x hi, hindex, hbody]
    simp only [Option.map_some, Body.sharing, Option.some.injEq]

end Sys2Proof.Machine
end

section
/-! SUPPORT. The decision claim of a check at the completion of its last body read (R33, R34, R40 to R42). -/

namespace Sys2Proof.Machine

open State Tables

namespace State

/-! ## The damage claims of the reads (R34) -/

section Damage

variable {T T' : Tables}

/-- Whatever it finds, a damage claim breaks holds and nothing else of the hold tables. -/
theorem damageClaim_breaks (T : Tables) (i : Index) (g : Generation) :
    ∃ l, Breaks .damaged T (T.damageClaim i g) l := by
  by_cases h : (T.entry i).generation ≠ g ∨ (T.entry i).state = .free ∨ (T.entry i).state = .pending ∨
      (T.entry i).state = .damaged
  · rw [damageClaim_of_none h]
    exact ⟨_, Breaks.of_sameHolds (SameHolds.refl T)⟩
  · simp only [not_or, not_not] at h
    obtain ⟨hg, hfree, hpending, hdamaged⟩ := h
    have hs : (T.entry i).state = .live ∨ (T.entry i).state = .suspended ∨ (T.entry i).state = .draining := by
      cases hs : (T.entry i).state <;> simp_all
    exact ⟨_, (damageBroken_breaks T i).then_sameHolds (damageClaim_sameHolds hg hs)⟩

theorem damageOfRead_breaks (T : Tables) (r : ReadRecord) : ∃ l, Breaks .damaged T (damageOfRead T r) l := by
  unfold damageOfRead
  split
  · exact damageClaim_breaks T _ _
  · exact ⟨_, Breaks.of_sameHolds (SameHolds.refl T)⟩

theorem allTokens_ascending : allTokens.Pairwise (· < ·) := by decide

/-- Put in token order, the frames of a claim's breaks stand at the tail. -/
theorem Breaks.brokenInOrder {reason : BreakReason} {l : PortId → List Token} (h : Breaks reason T T' l) (p : PortId) :
    BrokenInOrder reason (T.queueOf p) ((orderFrames T T').queueOf p) := by
  have hq := ((breaksHolds_iff ..).mp h.ordered p).2
  rw [hq]
  split
  · exact ⟨_, allTokens_ascending.filter _, rfl⟩
  · exact ⟨[], List.Pairwise.nil, rfl⟩

theorem readDamage_ports (T : Tables) (x : CheckSlot) : SamePorts T (readDamage T x) :=
  (samePorts_closed T).breaks.readDamage x (SamePorts.refl T)

end Damage

variable {s u : State}

/-! ## What the decision goes by -/

theorem decisionReason_congr (hT : u.tables = s.tables) (hp : u.partState = s.partState) :
    u.decisionReason = s.decisionReason := by
  funext p x
  simp only [decisionReason, earlyTests, statusTests, targetReason, hT, hp]

/-- A failing early test gives the reason of the decision. -/
theorem decisionReason_of_early {p : PortId} {x : CheckSlot} {j : Index} {r : DenyReason} (hj : Concerns x j)
    (h : s.earlyDeny p x x.named.index j (codesAgree x) = some r) : s.decisionReason p x = some r := by
  rw [decisionReason, firstDeny_earlyTests hj, h]
  rfl

theorem codesAgree_of_target {x : CheckSlot} {tr : ReadRecord} {r : ReadResult} (ht : x.targetRead = some tr)
    (hr : tr.result = some r) (hagreed : r.agreed = false) : codesAgree x = false := by
  simp [codesAgree, readsOf, ht, hr, hagreed]

/-- The slot is occupied where it was before the grant. -/
theorem slot_leaveHead_none {b : BankId} (p : PortId) (g : Tag) : (s.leaveHead b).slot p g = none ↔ s.slot p g = none := by
  have h := reservations_leaveHead s b p g
  unfold reservations at h
  rw [← Option.map_eq_none_iff (f := fun x : CheckSlot => (x.request.kind, x.token)), h, Option.map_eq_none_iff]

/-! ## The decision claim -/

theorem settled_port (s : State) (p : PortId) (g : Tag) (x : CheckSlot) (p' : PortId) :
    (s.settled p g x).port p' = s.tables.port p' := by
  have c := samePorts_closed s.tables
  have h : SamePorts s.tables (s.settled p g x) := by
    unfold settled
    split
    · exact c.returnEntry p x (SamePorts.refl _)
    · exact c.placeFrame p _ (c.settleEntry p x _ (SamePorts.refl _))
  exact congrArg (pick · p') h.ports

/-- The tables of a decision claim, the last tag of a RESETTING port gone. -/
theorem decideSlot_tables (s : State) (p : PortId) (g : Tag) (x : CheckSlot) :
    s.decideSlot p g x = State.setSlot { s with
      tables := if (s.tables.port p).state = .resetting ∧ ∀ g', g' ≠ g → s.slot p g' = none then
          (readDamage (s.settled p g x) x).completeReset p
        else readDamage (s.settled p g x) x } p g none := by
  have hport : (readDamage (s.settled p g x) x).port p = s.tables.port p :=
    (congrArg (pick · p) (readDamage_ports _ x).ports).trans (settled_port s p g x p)
  rw [decideSlot_eq]
  generalize readDamage (s.settled p g x) x = T at hport ⊢
  have htags : (State.setSlot { s with tables := T } p g none).noTags p = true ↔
      ∀ g', g' ≠ g → s.slot p g' = none := by
    rw [noTags_iff]
    refine forall_congr' fun g' => ?_
    rw [slot_setSlot]
    by_cases hg : g' = g
    · simp [hg]
    · simp only [hg, and_false, if_false, ne_eq, not_false_eq_true, true_implies]
      exact Iff.rfl
  unfold completeIfLast
  have hcond : (((State.setSlot { s with tables := T } p g none).tables.port p).state = .resetting ∧
      (State.setSlot { s with tables := T } p g none).noTags p = true) ↔
      ((s.tables.port p).state = .resetting ∧ ∀ g', g' ≠ g → s.slot p g' = none) :=
    and_congr (by show (T.port p).state = _ ↔ _; rw [hport]) htags
  by_cases h : (s.tables.port p).state = .resetting ∧ ∀ g', g' ≠ g → s.slot p g' = none
  · rw [if_pos (hcond.mpr h), if_pos h]
    rfl
  · rw [if_neg fun e => h (hcond.mp e), if_neg h]

/-- A completion claim that ends in a decision: what it leaves, up to the bank's next choice. -/
theorem choicePoint_decides {p : PortId} {g : Tag} {b : BankId} (T : Tables) :
    let t := (State.setSlot { u with tables := T } p g none).choicePoint b
    t.slot p g = none ∧ (∀ p' g', (p' ≠ p ∨ g' ≠ g) → t.slot p' g' = u.slot p' g') ∧
      ChoiceMade (u.bank b) (t.bank b) ∧ (∀ b', b' ≠ b → t.bank b' = u.bank b') ∧
      t = { u with slots := t.slots, banks := t.banks, storage := t.storage, tables := t.tables } ∧ t.tables = T := by
  intro t
  obtain ⟨hslot, hrest⟩ := choicePoint_slots (u := { u with tables := T })
    (v := State.setSlot { u with tables := T } p g none) rfl b
  have htables : t.tables = T := congrArg State.tables hrest
  refine ⟨(hslot p g).trans (slot_setSlot_self _ _ _ _), fun p' g' hne => ?_, ?_, fun b' hb => ?_, ?_, htables⟩
  · exact (hslot p' g').trans (slot_setSlot_other _ _ hne)
  · exact choiceMade_choicePoint (State.setSlot { u with tables := T } p g none) b
  · exact (queue_choicePoint _ b b').2 hb
  · rw [htables]
    exact hrest

/-- The last read of a check decides it. -/
theorem slotTakes_decides {p : PortId} {g : Tag} {x y : CheckSlot} {j : Index} {r : ReadResult}
    (hx : s.slot p g = some x) (hj : x.kind = .aliasKind → x.target = some j)
    (h : (x.targetRead = none ∧ y = { x with named := { x.named with result := some r } } ∧
        (x.kind = .dataKind ∨ s.earlyDeny p x x.named.index j r.agreed ≠ none)) ∨
      ∃ tr, x.targetRead = some tr ∧ y = { x with targetRead := some { tr with result := some r } }) :
    s.slotTakes p g r = s.decideSlot p g y := by
  rcases h with ⟨ht, rfl, hlast⟩ | ⟨tr, ht, rfl⟩
  · cases hk : x.kind with
    | dataKind => rw [slotTakes_of_data hx ht hk, ← hk]
    | aliasKind =>
      obtain ⟨d, hd⟩ := Option.ne_none_iff_exists'.mp (hlast.resolve_left (by rw [hk]; decide))
      rw [slotTakes_of_alias hx ht hk (hj hk), hd, ← hk]
  · exact slotTakes_of_last hx ht r

end State

/-- Settles O32: the reasons, the tables before and after the damage claims, and what the claim leaves. -/
theorem checkIsDecided : Obligations.CheckIsDecided := by
  intro s u b p g i j gen rest x y hbusy hq hu hx hdata halias hlast
  obtain ⟨hleave, htables, hpart, -, hother⟩ := State.placeGranted_same hq hu
  have hearly := State.earlyDeny_congr htables hpart
  have hexec := State.exec_bodyReadCompletion hbusy hq
  rw [← hleave, State.issuerTakes, State.slotTakes_decides (y := y) hx halias (by rw [hearly]; exact hlast),
    State.decideSlot_tables] at hexec
  obtain ⟨hself, hslots, hmade, hbanks, hrest, htabs⟩ := State.choicePoint_decides (u := u) (p := p) (g := g) (b := b)
    (if (u.tables.port p).state = .resetting ∧ ∀ g', g' ≠ g → u.slot p g' = none then
      (readDamage (u.settled p g y) y).completeReset p else readDamage (u.settled p g y) y)
  refine ⟨_, u.settled p g y, readDamage (u.settled p g y) y, hexec, hself, hslots, hmade,
    fun b' hb => (hbanks b' hb).trans (hother b' hb), hrest, fun ht r hr => ?_, fun tr ht hagreed => ?_, ?_, fun ht => ?_,
    fun tr ht => ?_, ?_⟩
  · obtain ⟨-, rfl, -⟩ := hlast.resolve_right fun ⟨tr, h, _⟩ => nomatch ht.symm.trans h
    refine State.decisionReason_of_early (j := j) ⟨hdata, halias⟩ ?_
    have hcodes : codesAgree { x with named := { x.named with result := some (s.readBody i) } } =
        (s.readBody i).agreed := State.codesAgree_of_one rfl ht
    rw [hcodes]
    exact hr
  · obtain ⟨tr', ht', rfl⟩ := hlast.resolve_left fun h => nomatch h.1.symm.trans ht
    have hcodes := State.codesAgree_of_target (x := { x with targetRead := some { tr' with
      result := some (s.readBody i) } }) rfl rfl hagreed
    exact (State.decisionReason_of_mismatch (x := { x with targetRead := some { tr' with
      result := some (s.readBody i) } }) (j := j) ⟨hdata, halias⟩ hcodes).trans (State.earlyDeny_false ..)
  · have htoken : y.token = x.token := by
      rcases hlast with ⟨-, rfl, -⟩ | ⟨tr, -, rfl⟩ <;> rfl
    unfold State.settled State.settleEntry State.returnEntry State.verdictOf
    rw [htables, State.decisionReason_congr htables hpart, htoken]
    split_ifs
    · cases x.token <;> rfl
    · cases s.decisionReason p y <;> cases x.token <;> rfl
  · obtain ⟨-, rfl, -⟩ := hlast.resolve_right fun ⟨tr, h, _⟩ => nomatch ht.symm.trans h
    unfold State.readDamage State.damageOfRead State.mismatched
    simp only [ht, Option.any_some]
    cases (s.readBody i).agreed <;> rfl
  · obtain ⟨tr', ht', rfl⟩ := hlast.resolve_left fun h => nomatch h.1.symm.trans ht
    obtain rfl : tr = tr' := Option.some.inj (ht.symm.trans ht')
    have hnamed : ∀ T, (if x.named.result.any (fun r => !r.agreed) = true then
        T.damageClaim x.named.index x.named.generation else T) = State.damageOfRead T x.named := fun T => rfl
    have htarget : ∀ T, (if (s.readBody i).agreed = true then T else T.damageClaim tr.index tr.generation) =
        State.damageOfRead T { tr with result := some (s.readBody i) } := fun T => by
      unfold State.damageOfRead State.mismatched
      simp only [Option.any_some]
      cases (s.readBody i).agreed <;> rfl
    dsimp only
    rw [hnamed, htarget]
    obtain ⟨l1, h1⟩ := State.damageOfRead_breaks (u.settled p g { x with targetRead := some { tr with
      result := some (s.readBody i) } }) x.named
    obtain ⟨l2, h2⟩ := State.damageOfRead_breaks (State.damageOfRead (u.settled p g { x with targetRead := some { tr with
      result := some (s.readBody i) } }) x.named) { tr with result := some (s.readBody i) }
    exact ⟨orderFrames_rest _ _, fun p' => ⟨orderFrames_perm _ _ p', (h1.trans h2).brokenInOrder p'⟩⟩
  · rw [htabs]
    have hnone : ∀ g', u.slot p g' = none ↔ s.slot p g' = none := fun g' => by
      rw [hleave]
      exact State.slot_leaveHead_none p g'
    simp only [htables, hnone]

end Sys2Proof.Machine
end

section
/-! SUPPORT. The jobs of an establish: the completion of the BODY_WRITE, and of the target's read for an alias
(R9, R10, R78, R80, R81). -/

namespace Sys2Proof.Machine

open State Tables

namespace State

variable {s : State} {b : BankId}

/-! ## A body written in a completion claim -/

/-- The body written is in its position at the end of the claim. -/
theorem cells_endsAnswered {c : Cell} {i : Index} (hclean : s.PagesClean) (T : Tables)
    (e : Progress) (jobs : List EngineJob) (st : AnswerStatus) (content : List Byte)
    (j : Index) :
    ((endsAnswered ((s.writeCell i c).leaveHead b) T e jobs st content).choicePoint b).cellAt j =
      if j = i then c else s.cellAt j := by
  have hends : JobEnds (s.writeCell i c) ((s.writeCell i c).leaveHead b)
      ((endsAnswered ((s.writeCell i c).leaveHead b) T e jobs st content).choicePoint b) b
      (endsAnswered ((s.writeCell i c).leaveHead b) T e jobs st content) := by
    refine jobEnds_leaveHead rfl ?_ ?_
    · show ((s.writeCell i c).leaveHead b).storage = _
      rw [leaveHead_rest]
    · show ((s.writeCell i c).leaveHead b).bodyEra = _
      rw [leaveHead_rest]
  obtain ⟨-, -, hcells, -⟩ := hends
  rw [hcells (pagesClean_writeCell hclean i c) j, cellAt_writeCell]

theorem writeCell_work (i : Index) (c : Cell) : ((s.writeCell i c).bank b).queue = (s.bank b).queue ∧
    ((s.writeCell i c).bank b).controller = (s.bank b).controller ∧ (s.writeCell i c).tables = s.tables ∧
    (s.writeCell i c).engine = s.engine := by
  obtain ⟨o, -, ho⟩ := sameWork_writeCell s i c b
  rw [ho]
  refine ⟨rfl, rfl, ?_, ?_⟩ <;> rw [writeCell_rest]

theorem exec_bodyWriteCompletion {i : Index} {g : Generation} {body : Body} {rest : List Job}
    (hbusy : (s.bank b).controller = .busy) (hq : (s.bank b).queue = .bodyWrite i g body :: rest) :
    exec (.bodyWriteCompletion b) s =
      .next ((((s.writeCell i (.stored body.sealed)).leaveHead b).engineTakesWrite i g).choicePoint b) := by
  show Host.Outcome.next (s.completeWrite b) = _
  simp only [completeWrite, hbusy, hq]

/-! ## The record becomes LIVE (R9, R78) -/

/-- The tables of the claim in which a PENDING record becomes LIVE. -/
def liveTables (T : Tables) (i : Index) : Option Epoch → Tables
  | some d => (T.modEntry i fun e => { e with state := .live }).enterQueue i d
  | none => T.modEntry i fun e => { e with state := .live }

theorem becomeLive_eq {e : Progress} (h : s.engine = some e) (i : Index) (g : Generation) (dl : Option Epoch) :
    s.becomeLive i g dl = endsAnswered s (liveTables s.tables i dl) e e.jobs .done (handleBytes i g) := by
  cases dl with
  | none => exact (answer_of_engine (s := s.setRecState i .live) h .done _).trans rfl
  | some d =>
    exact (answer_of_engine (s := (s.setRecState i .live).onTables fun T => T.enterQueue i d) h .done _).trans rfl

theorem liveTables_entry (T : Tables) {i : Index} (hi : i ≠ 0) (dl : Option Epoch) (j : Index) :
    (liveTables T i dl).entry j = if j = i then { T.entry j with
      state := .live
      deadline := match dl with
        | some d => some d
        | none => (T.entry j).deadline } else T.entry j := by
  have hmod : (T.modEntry i fun e => { e with state := .live }).entry j =
      if j = i then { T.entry j with state := .live } else T.entry j := by
    rw [entry_modEntry]
    simp only [ne_eq, hi, not_false_eq_true, and_true]
  cases dl with
  | none => exact hmod
  | some d =>
    refine (enterQueue_entry _ i j d hi).trans ?_
    rw [hmod]
    by_cases hj : j = i
    · rw [if_pos hj, if_pos hj, if_pos hj]
    · rw [if_neg hj, if_neg hj, if_neg hj]

theorem liveTables_rest (T : Tables) (i : Index) (dl : Option Epoch) : liveTables T i dl = { T with
    rst := (liveTables T i dl).rst
    expiryQueue := match dl with
      | some d => insertDue d i (T.expiryQueue.filter fun x => x.2 != i)
      | none => T.expiryQueue } := by
  cases dl with
  | none => exact modEntry_rest T i fun e => { e with state := .live }
  | some d =>
    have hlive : T.modEntry i (fun e => { e with state := .live }) = _ := modEntry_rest T i _
    have hqueue : liveTables T i (some d) = { T.modEntry i (fun e => { e with state := .live }) with
        rst := (liveTables T i (some d)).rst
        expiryQueue := insertDue d i
          ((T.modEntry i fun e => { e with state := .live }).expiryQueue.filter fun x => x.2 != i) } :=
      enterQueue_rest (T.modEntry i fun e => { e with state := .live }) i d
    generalize liveTables T i (some d) = V at hqueue ⊢
    generalize T.modEntry i (fun e => { e with state := .live }) = U at hlive hqueue
    rw [hlive] at hqueue
    exact hqueue

/-! ## The PENDING record becomes FREE (R10) -/

theorem freeTaken_eq {i : Index} {g : Generation} (hp : (s.tables.entry i).state = .pending)
    (hg : (s.tables.entry i).generation = g) :
    s.freeTaken i g = { s with tables := becomeFree none s.tables i } := if_pos ⟨hp, hg⟩

/-- The record taken and its request refused. -/
theorem freeTaken_refuse {e : Progress} (h : s.engine = some e) {i : Index} {g : Generation}
    (hp : (s.tables.entry i).state = .pending) (hg : (s.tables.entry i).generation = g) (st : AnswerStatus) :
    (s.freeTaken i g).refuse st = endsAnswered s (becomeFree none s.tables i) e e.jobs st [] := by
  rw [freeTaken_eq hp hg]
  exact (answer_of_engine (s := { s with tables := becomeFree none s.tables i }) h st []).trans rfl

/-! ## The completion of the write -/

theorem engineTakesWrite_data {e : Progress} {a : EstablishDataArgs} {i : Index} {g : Generation} {d : DomainId}
    {x : DataBody} {dl : Option Epoch} (h : s.engine = some e) (hp : (s.tables.entry i).state = .pending)
    (hg : (s.tables.entry i).generation = g) (hr : e.request = .establishData a)
    (ha : establishDataOf a = some (d, x, dl)) :
    s.engineTakesWrite i g = endsAnswered s (liveTables s.tables i dl) e (e.jobs.map (withResult .wrote)) .done
      (handleBytes i g) := by
  unfold engineTakesWrite
  have hv := setJobResult_of_engine .wrote h
  generalize s.setJobResult .wrote = v at hv ⊢
  rw [if_neg (by simp [hp, hg])]
  simp only [h, hr, ha]
  subst hv
  exact (becomeLive_eq (s := { s with engine := some { e with jobs := e.jobs.map (withResult .wrote) } }) rfl i g dl).trans rfl

theorem engineTakesWrite_alias {e : Progress} {a : EstablishAliasArgs} {i t : Index} {g : Generation} {d : DomainId}
    {x : AliasBody} {dl : Option Epoch} (h : s.engine = some e) (hp : (s.tables.entry i).state = .pending)
    (hg : (s.tables.entry i).generation = g) (hr : e.request = .establishAlias a)
    (ha : establishAliasOf a = some (d, t, x, dl)) :
    s.engineTakesWrite i g =
      if targetStands s.tables t a.targetGeneration = true then
        endsAnswered s (liveTables s.tables i dl) e (e.jobs.map (withResult .wrote)) .done (handleBytes i g)
      else endsAnswered s (becomeFree none s.tables i) e (e.jobs.map (withResult .wrote)) .revoked [] := by
  unfold engineTakesWrite
  have hv := setJobResult_of_engine .wrote h
  generalize s.setJobResult .wrote = v at hv ⊢
  rw [if_neg (by simp [hp, hg])]
  simp only [h, hr, ha]
  subst hv
  split
  · exact (becomeLive_eq (s := { s with engine := some { e with jobs := e.jobs.map (withResult .wrote) } }) rfl i g dl).trans rfl
  · exact freeTaken_refuse (s := { s with engine := some { e with jobs := e.jobs.map (withResult .wrote) } }) rfl hp hg
      .revoked

theorem targetStands_iff (T : Tables) (t : Index) (g : Generation) : targetStands T t g = true ↔
    ((T.entry t).state = .live ∨ (T.entry t).state = .suspended) ∧ (T.entry t).generation = g := by
  simp [targetStands, usable]

end State

/-- Settles O36: the two ways in which the write of a body ends its request. -/
theorem bodyWriteResolvesEstablish : Obligations.BodyWriteResolvesEstablish := by
  intro s w b i g body rest e dl hbusy hq hb hclean hi hp hg he hw answeredBy
  obtain ⟨hqueue, hcontrol, htables, hengine⟩ := State.writeCell_work (s := s) (b := b) i
    (.stored ⟨body, crc16 body.bytes⟩)
  have hexec := State.exec_bodyWriteCompletion hbusy hq
  obtain ⟨ph, hph⟩ := State.leaveHead_engine (b := b) (hengine.trans he)
  have hT : ((s.writeCell i (.stored ⟨body, crc16 body.bytes⟩)).leaveHead b).tables = s.tables :=
    (State.leaveHead_tables _ b).trans htables
  have hcells := fun T st content j => State.cells_endsAnswered (b := b) (i := i)
    (c := .stored ⟨body, crc16 body.bytes⟩) hclean T e (e.jobs.map (withResult .wrote)) st content
    j
  have hends := fun T st content => State.choicePoint_endsAnswered T e (e.jobs.map (withResult .wrote)) st content
    (hqueue.trans hq)
  change exec _ s = .next ((((s.writeCell i (.stored ⟨body, crc16 body.bytes⟩)).leaveHead b).engineTakesWrite i
    g).choicePoint b) at hexec
  rw [← hw] at *
  have hpending : ((w.leaveHead b).tables.entry i).state = .pending := by rw [hT]; exact hp
  have hgen : ((w.leaveHead b).tables.entry i).generation = g := by rw [hT]; exact hg
  refine ⟨fun h => ?_, fun h => ?_⟩
  · have htakes : (w.leaveHead b).engineTakesWrite i g = State.endsAnswered (w.leaveHead b)
        (State.liveTables s.tables i dl) e (e.jobs.map (withResult .wrote)) .done (handleBytes i g) := by
      rcases h with ⟨a, d, x, hr, ha⟩ | ⟨a, d, tg, x, hr, ha, hstate, htgen⟩
      · rw [State.engineTakesWrite_data hph hpending hgen hr ha, hT]
        rfl
      · rw [State.engineTakesWrite_alias hph hpending hgen hr ha, hT,
          if_pos ((State.targetStands_iff ..).mpr ⟨hstate, htgen⟩)]
        rfl
    have hend := hexec.trans (congrArg (fun v => Host.Outcome.next (State.choicePoint v b)) htakes)
    obtain ⟨htabs, hiface, hanswer, hall⟩ := hends (State.liveTables s.tables i dl) .done (handleBytes i g)
    have hcell := hcells (State.liveTables s.tables i dl) .done (handleBytes i g)
    have hentry := State.liveTables_entry s.tables hi dl
    have hrest := State.liveTables_rest s.tables i dl
    refine ⟨_, hend, (hcell i).trans (if_pos rfl), fun j hj => (hcell j).trans (if_neg hj), ?_, fun j hj => ?_, ?_,
      hanswer, hiface, fun u hu => ?_⟩
    · rw [htabs, hentry, if_pos rfl] <;> cases dl <;> rfl
    · rw [htabs, hentry, if_neg hj]
    · rw [htabs]
      refine hrest.trans ?_
      cases dl <;> rfl
    · show JobEnds w u _ b _
      rw [htabs]
      exact hall u hu
  · obtain ⟨a, d, tg, x, hr, ha, hstate⟩ := h
    have htakes : (w.leaveHead b).engineTakesWrite i g = State.endsAnswered (w.leaveHead b)
        (becomeFree none s.tables i) e (e.jobs.map (withResult .wrote)) .revoked [] := by
      rw [State.engineTakesWrite_alias hph hpending hgen hr ha, hT, if_neg fun e => ?_]
      · rfl
      · obtain ⟨h1, h2⟩ := (State.targetStands_iff ..).mp e
        exact hstate.elim (fun h => h1.elim h.1 h.2) fun h => h h2
    have hend := hexec.trans (congrArg (fun v => Host.Outcome.next (State.choicePoint v b)) htakes)
    obtain ⟨htabs, hiface, hanswer, hall⟩ := hends (becomeFree none s.tables i) .revoked []
    have hcell := hcells (becomeFree none s.tables i) .revoked []
    have hself := becomeFree_self (T := s.tables) none hi
    refine ⟨_, hend, (hcell i).trans (if_pos rfl), fun j hj => (hcell j).trans (if_neg hj), ?_, ?_, htabs,
      hanswer, hiface, fun u hu => ?_⟩
    · rw [htabs, hself]
      rfl
    · rw [htabs, hself, ← hg]
      rfl
    · show JobEnds w u _ b _
      rw [htabs]
      exact hall u hu

end Sys2Proof.Machine
end

section
/-! SUPPORT. The completion of the target's read of an alias establish (R10, R80). -/

namespace Sys2Proof.Machine

open State Tables

namespace Tables

/-- A record that becomes FREE leaves the alias list that it stands in. -/
theorem not_mem_aliases_becomeFree {T : Tables} {i t : Index} (hi : i ≠ 0) (hne : t ≠ i)
    (hn : (T.entry t).aliases.Nodup) (ha : i ∈ (T.entry t).aliases → (T.entry i).target = some t) :
    i ∉ ((becomeFree none T i).entry t).aliases := by
  have hfreed : i ∉ ((T.freed i).entry t).aliases := by
    rw [freed_entry T i t hi, if_neg hne]
    split
    · exact fun h => hn.not_mem_erase h
    · next ht => exact fun h => ht (ha h)
  rw [becomeFree_eq, joinOrPark_entry]
  cases (T.entry i).target with
  | none => exact hfreed
  | some t' =>
    exact fun h => hfreed ((Steady.testTarget (A := fun _ => False) none t' t).aliases.subset h)

end Tables

namespace State

variable {s : State}

/-- The answer that refuses an alias establish at its target's read, absent where it goes on. -/
def establishTargetRefusal (T : Tables) (t : Index) (body : AliasBody) (r : ReadResult) : Option AnswerStatus :=
  if ¬ ((T.entry t).state = .live ∨ (T.entry t).state = .suspended) then some .revoked
  else if r.agreed = false then some .damaged
  else if r.body.extent.toNat < body.offset.toNat + body.extent.toNat then some .badArgument
  else if body.rights.subset r.body.rights = false then some .badArgument
  else none

/-- The tables that a refused alias establish leaves. -/
def establishRefused (T : Tables) (i t : Index) (tg : Generation) (r : ReadResult) : Tables :=
  if r.agreed = true then becomeFree none T i
  else if (T.entry t).state = .live ∨ (T.entry t).state = .suspended then becomeFree none (T.damageClaim t tg) i
  else (becomeFree none T i).damageClaim t tg

/-- A damage claim on another record leaves a PENDING one PENDING. -/
theorem damageClaim_pending {T : Tables} {i t : Index} {tg : Generation} (hne : t ≠ i)
    (hp : (T.entry i).state = .pending) : SameLife (T.entry i) ((T.damageClaim t tg).entry i) :=
  (Steady.damageClaim (A := fun j => j = t) rfl tg).sameLife (fun h => hne h.symm) (by rw [hp]; decide)

theorem establishRefused_free {T : Tables} {i t : Index} {g : Generation} (hi : i ≠ 0) (hne : t ≠ i)
    (hp : (T.entry i).state = .pending) (hg : (T.entry i).generation = g) (tg : Generation) (r : ReadResult) :
    ((establishRefused T i t tg r).entry i).state = .free ∧
      ((establishRefused T i t tg r).entry i).generation = g + 1 := by
  have hfree : ∀ U : Tables, (U.entry i).generation = g → ((becomeFree none U i).entry i).state = .free ∧
      ((becomeFree none U i).entry i).generation = g + 1 := fun U hU => by
    rw [becomeFree_self none hi, hU]
    exact ⟨rfl, rfl⟩
  unfold establishRefused
  split_ifs
  · exact hfree T hg
  · obtain ⟨-, hgen, -⟩ := damageClaim_pending (tg := tg) hne hp
    exact hfree _ (hgen.trans hg)
  · obtain ⟨hstate, hgen⟩ := hfree T hg
    obtain ⟨hstate', hgen', -⟩ := (Steady.damageClaim (T := becomeFree none T i) (A := fun j => j = t) rfl tg).sameLife
      (j := i) (fun h => hne h.symm) (by rw [hstate]; decide)
    exact ⟨hstate'.trans hstate, hgen'.trans hgen⟩

theorem establishRefused_aliases {T : Tables} {i t : Index} (ha : AliasLaw T) (hi : i ≠ 0) (hne : t ≠ i)
    (hp : (T.entry i).state = .pending) (tg : Generation) (r : ReadResult) :
    i ∉ ((establishRefused T i t tg r).entry t).aliases := by
  obtain ⟨htarget, hlists⟩ := ha
  have hplain := not_mem_aliases_becomeFree hi hne (hlists t).1 (htarget t i).mp
  unfold establishRefused
  split_ifs
  · exact hplain
  · have hsub := (Steady.damageClaim (T := T) (A := fun j => j = t) rfl tg t).aliases
    obtain ⟨-, -, -, -, htg, -⟩ := damageClaim_pending (tg := tg) hne hp
    exact not_mem_aliases_becomeFree hi hne (hsub.nodup (hlists t).1) fun h =>
      htg.trans ((htarget t i).mp (hsub.subset h))
  · exact fun h => hplain ((Steady.damageClaim (A := fun j => j = t) rfl tg t).aliases.subset h)

theorem aliasFits_eq_false_iff (a : AliasBody) (b : Body) : aliasFits a b = false ↔
    b.extent.toNat < a.offset.toNat + a.extent.toNat ∨ a.rights.subset b.rights = false := by
  unfold aliasFits
  rw [Bool.and_eq_false_iff, decide_eq_false_iff_not, Nat.not_le]

theorem usable_false_iff (T : Tables) (t : Index) :
    usable T t = false ↔ ¬ ((T.entry t).state = .live ∨ (T.entry t).state = .suspended) := by
  unfold usable
  exact decide_eq_false_iff_not

theorem establishTargetRead_of_refusal {e : Progress} {i t : Index} {g : Generation} {body : AliasBody}
    {r : ReadResult} {st : AnswerStatus} (h : s.engine = some e) (hne : t ≠ i)
    (hp : (s.tables.entry i).state = .pending) (hg : (s.tables.entry i).generation = g)
    (hst : establishTargetRefusal s.tables t body r = some st) (tg : Generation) :
    s.establishTargetRead i g body t tg r =
      endsAnswered s (establishRefused s.tables i t tg r) e e.jobs st [] := by
  have hplain := fun st => freeTaken_refuse h hp hg st
  unfold establishTargetRefusal at hst
  unfold establishTargetRead establishRefused
  by_cases hstands : (s.tables.entry t).state = .live ∨ (s.tables.entry t).state = .suspended
  · rw [if_neg (not_not.mpr hstands)] at hst
    rw [if_neg fun hu => (usable_false_iff ..).mp hu hstands, if_pos hstands]
    by_cases hagreed : r.agreed = false
    · rw [if_pos hagreed] at hst
      obtain ⟨hstate, hgen, -⟩ := damageClaim_pending (tg := tg) hne hp
      have hclaim : s.readClaim t tg r = { s with tables := s.tables.damageClaim t tg } := by
        rw [readClaim_tables, if_neg (by rw [hagreed]; decide)]
      rw [if_pos hagreed, if_neg (by rw [hagreed]; decide), hclaim, ← Option.some.inj hst]
      exact freeTaken_refuse (s := { s with tables := s.tables.damageClaim t tg }) h (hstate.trans hp) (hgen.trans hg)
        .damaged
    · have hagreed' : r.agreed = true := (Bool.not_eq_false _).mp hagreed
      rw [if_neg hagreed] at hst
      have hfits : aliasFits body r.body = false ∧ st = .badArgument := by
        rw [aliasFits_eq_false_iff]
        split_ifs at hst with h1 h2
        · exact ⟨Or.inl h1, (Option.some.inj hst).symm⟩
        · exact ⟨Or.inr h2, (Option.some.inj hst).symm⟩
      rw [if_neg hagreed, if_pos hfits.1, if_pos hagreed', hplain, hfits.2]
  · rw [if_pos hstands] at hst
    rw [if_pos ((usable_false_iff ..).mpr hstands), if_neg hstands, hplain, readClaim_tables, ← Option.some.inj hst]
    rfl

theorem establishTargetRead_of_pass {i t : Index} {body : AliasBody} {r : ReadResult}
    (hst : establishTargetRefusal s.tables t body r = none) (g tg : Generation) :
    s.establishTargetRead i g body t tg r = s.askEngine (.bodyWrite i g (.aliasBody body)) := by
  unfold establishTargetRefusal at hst
  split_ifs at hst with hstands hagreed hextent hrights
  unfold establishTargetRead
  rw [if_neg fun hu => (usable_false_iff ..).mp hu hstands, if_neg hagreed,
    if_neg fun hf => ((aliasFits_eq_false_iff ..).mp hf).elim hextent hrights]

theorem engineTakesRead_establish {e : Progress} {a : EstablishAliasArgs} {i tg : Index} {g : Generation} {d : DomainId}
    {body : AliasBody} {dl : Option Epoch} (h : s.engine = some e) (hr : e.request = .establishAlias a)
    (htaken : e.taken = some (i, g)) (ha : establishAliasOf a = some (d, tg, body, dl)) (t : Index) (tgen : Generation)
    (r : ReadResult) :
    s.engineTakesRead t tgen r = (s.setJobResult (.read r)).establishTargetRead i g body t tgen r := by
  unfold engineTakesRead
  simp only [h, hr, htaken, ha]

end State

/-- Settles O37: the refusals of an alias at its target's read, and the write that is asked for. -/
theorem aliasEstablishTargetRead : Obligations.AliasEstablishTargetRead := by
  intro s b tg i tgen g rest e a d body dl hbusy hq he hr htaken ha hi hne hp hg r stands
  obtain ⟨ph, hph⟩ := State.leaveHead_engine (b := b) he
  have hexec := State.exec_bodyReadCompletion hbusy hq
  rw [State.issuerTakes, State.engineTakesRead_establish hph hr htaken ha] at hexec
  have htakes := State.setJobResult_of_engine (.read r) hph
  generalize (s.leaveHead b).setJobResult (.read r) = v at hexec htakes
  have htables : v.tables = s.tables := by
    rw [htakes]
    exact State.leaveHead_tables s b
  have hengine : v.engine = some { e with phase := ph, jobs := e.jobs.map (withResult (.read r)) } := by
    rw [htakes]
  refine ⟨fun st hst => ?_, fun hs hagreed hextent hrights => ?_⟩
  · have hrefuses : v.establishTargetRead i g body tg tgen r =
        State.endsAnswered (s.leaveHead b) (State.establishRefused s.tables i tg tgen r) e
          (e.jobs.map (withResult (.read r))) st [] := by
      rw [State.establishTargetRead_of_refusal hengine hne (by rw [htables]; exact hp) (by rw [htables]; exact hg)
        (by rw [htables]; exact hst), htables, htakes]
      rfl
    have hend := hexec.trans (congrArg (fun w => Host.Outcome.next (State.choicePoint w b)) hrefuses)
    obtain ⟨htables', hiface, hanswer, hends⟩ := State.choicePoint_endsAnswered
      (State.establishRefused s.tables i tg tgen r) e (e.jobs.map (withResult (.read r))) st [] hq
    have hkind : requestKind e.request = 0x0B := by
      rw [hr]
      rfl
    rw [hkind] at hanswer
    obtain ⟨hfree, hgen⟩ := State.establishRefused_free hi hne hp hg tgen r
    refine ⟨_, hend, ?_, ?_, fun hlaw => ?_, htables', hanswer, hiface, fun u hu => ?_⟩
    · rw [htables']
      exact hfree
    · rw [htables']
      exact hgen
    · rw [htables']
      exact State.establishRefused_aliases hlaw hi hne hp tgen r
    · rw [htables', ← hkind]
      exact hends u hu
  · intro job
    have hpass : State.establishTargetRefusal v.tables tg body r = none := by
      rw [htables, State.establishTargetRefusal, if_neg (not_not.mpr hs), if_neg (by simp [hagreed]),
        if_neg (Nat.not_lt.mpr hextent), if_neg (by simp [hrights])]
    rw [State.establishTargetRead_of_pass hpass, htakes] at hexec
    obtain ⟨htables', hiface, hanswer, hasks⟩ := State.engineAsks (next := job)
      (e := { e with phase := ph, jobs := e.jobs.map (withResult (.read r)) }) hbusy hq rfl
    exact ⟨_, hexec, htables', hiface, hanswer, hasks⟩

end Sys2Proof.Machine
end

section
/-! SUPPORT. A lost page: its damage claims, one after the other, and its positions (R67, R155, R159, R160). -/

namespace Sys2Proof.Machine

open State Tables

namespace State

variable {T T' : Tables} {i : Index}

/-! ## One damage claim with the record's own generation -/

/-- The states on which a damage claim acts. -/
def Claimed (x : RecState) : Prop := x = .live ∨ x = .suspended ∨ x = .draining

theorem lossClaim_eq (T : Tables) (i : Index) : lossClaim T i = T.damageClaim i (T.entry i).generation := by
  unfold lossClaim
  split
  · next h0 =>
    have hfree : (T.entry i).state = .free := by
      by_contra hs
      exact Core.ne_zero hs ((val_eq_zero_iff i).mp h0)
    exact (damageClaim_of_none (Or.inr (Or.inl hfree))).symm
  · rfl

theorem damageClaim_of_not_claimed (h : ¬ Claimed (T.entry i).state) (g : Generation) : T.damageClaim i g = T := by
  refine damageClaim_of_none (Or.inr ?_)
  cases hs : (T.entry i).state <;> simp_all [Claimed]

theorem pinLaw_damageClaim (h : PinLaw T) (i : Index) (g : Generation) : PinLaw (T.damageClaim i g) := by
  have hbroken : PinLaw (damageBroken T i) := pinLaw_breakAll h _ _ _
  by_cases hg : (T.entry i).generation = g
  · by_cases hc : Claimed (T.entry i).state
    · by_cases hd : (T.entry i).state = .draining
      · rw [damageClaim_of_draining hg hd]
        exact pinLaw_testDraining (pinLaw_raiseRecord hbroken i .damaged) none i
      · rw [damageClaim_of_live hg (hc.imp id fun h => h.resolve_right hd)]
        exact pinLaw_changed (pinLaw_raiseRecord (pinLaw_leaveQueue hbroken i) i .damaged) i .damaged
    · rw [damageClaim_of_not_claimed hc]
      exact h
  · rw [damageClaim_of_none (Or.inl hg)]
    exact h

theorem QueueSteady.damageClaim (i : Index) (g : Generation) :
    QueueSteady (fun j => j = i) T (T.damageClaim i g) := by
  have hbroken : QueueSteady (fun j => j = i) T (damageBroken T i) := QueueSteady.breakAll _ _ _
  by_cases hg : (T.entry i).generation = g
  · by_cases hc : Claimed (T.entry i).state
    · by_cases hd : (T.entry i).state = .draining
      · rw [damageClaim_of_draining hg hd]
        exact (hbroken.trans (QueueSteady.raiseRecord i .damaged)).trans (QueueSteady.testDraining none i)
      · rw [damageClaim_of_live hg (hc.imp id fun h => h.resolve_right hd)]
        have hend : QueueSteady (fun j => j = i) (damageBroken T i)
            (((damageBroken T i).leaveQueue i).raiseRecord i .damaged) :=
          QueueSteady.trans (QueueSteady.leaveQueue rfl) (QueueSteady.raiseRecord i .damaged)
        refine (hbroken.trans hend).trans (QueueSteady.of_eq ?_)
        unfold damageEnd
        rw [modEntry_rest]
    · rw [damageClaim_of_not_claimed hc]
      exact QueueSteady.of_eq rfl
  · rw [damageClaim_of_none (Or.inl hg)]
    exact QueueSteady.of_eq rfl

/-- A HELD entry after the claim: it rested on no record that the claim took. -/
theorem lossClaim_hold_iff (T : Tables) (i : Index) (p : PortId) (t : Token) (h : HeldHold) :
    (lossClaim T i).hold p t = .held h ↔
      T.hold p t = .held h ∧ ¬ (Claimed (T.entry i).state ∧ restsOn i h = true) := by
  rw [lossClaim_eq]
  by_cases hc : Claimed (T.entry i).state
  · rw [((damageBroken_breaks T i).then_sameHolds (damageClaim_sameHolds rfl hc)).hold]
    simp only [hc, true_and]
    split
    · next hm =>
      obtain ⟨h', hh', hr⟩ := (mem_restingTokens T i p t).mp hm
      refine ⟨fun h => (nomatch h), fun ⟨hh, hn⟩ => ?_⟩
      rw [hh] at hh'
      cases hh'
      exact absurd hr hn
    · next hm => exact ⟨fun hh => ⟨hh, fun hr => hm ((mem_restingTokens T i p t).mpr ⟨h, hh, hr⟩)⟩, fun hh => hh.1⟩
  · rw [damageClaim_of_not_claimed hc]
    simp [hc]

/-! ## The damage claims of a page -/

theorem lossClaims_breaks (l : List Index) (T : Tables) : ∃ m, Breaks .damaged T (l.foldl lossClaim T) m := by
  induction l generalizing T with
  | nil => exact ⟨_, Breaks.of_sameHolds (SameHolds.refl T)⟩
  | cons i l ih =>
    obtain ⟨m1, h1⟩ := damageClaim_breaks T i (T.entry i).generation
    rw [← lossClaim_eq] at h1
    obtain ⟨m2, h2⟩ := ih (lossClaim T i)
    exact ⟨_, h1.trans h2⟩

theorem lossClaims_queueSteady (l : List Index) (T : Tables) :
    (l.foldl lossClaim T).expiryQueue.Sublist T.expiryQueue := by
  induction l generalizing T with
  | nil => exact List.Sublist.refl _
  | cons i l ih =>
    refine (ih (lossClaim T i)).trans ?_
    rw [lossClaim_eq]
    exact (QueueSteady.damageClaim i _).sublist

theorem steady_lossClaim (T : Tables) (i : Index) : Steady (fun j => j = i) T (lossClaim T i) := by
  rw [lossClaim_eq]
  exact Steady.damageClaim (A := fun j => j = i) rfl _

/-- What a lost page leaves of a LIVE or SUSPENDED record in it. -/
structure Lost (T' : Tables) (i : Index) : Prop where
  state : (T'.entry i).state = .damaged
  deadline : (T'.entry i).deadline = none
  reason : (T'.entry i).reasons.damaged = true
  notDue : ∀ x ∈ T'.expiryQueue, x.2 ≠ i
  unheld : ∀ p t h, T'.hold p t = .held h → restsOn i h = false

/-- What the claims on other records leave. -/
theorem Lost.lossClaims (h : Lost T i) {l : List Index} (hi : i ∉ l) : Lost (l.foldl lossClaim T) i := by
  have hsteady : Steady (fun j => j ∈ l) T (l.foldl lossClaim T) := Steady.lossClaims l fun j hj => hj
  obtain ⟨hstate, -, -, -, -, hdeadline⟩ := hsteady.sameLife hi (by rw [h.state]; decide)
  obtain ⟨m, hm⟩ := lossClaims_breaks l T
  refine ⟨hstate.trans h.state, hdeadline.trans h.deadline, (hsteady i).reasons.damaged h.reason,
    fun x hx => h.notDue x ((lossClaims_queueSteady l T).subset hx), fun p t y hy => h.unheld p t y ?_⟩
  rw [hm.hold] at hy
  split_ifs at hy
  exact hy

theorem lost_lossClaim (hs : (T.entry i).state = .live ∨ (T.entry i).state = .suspended) : Lost (lossClaim T i) i := by
  rw [lossClaim_eq]
  obtain ⟨hstate, -, hdeadline, hdue, hreasons, -⟩ := damageClaim_live (T := T) (i := i) rfl hs
  refine ⟨hstate, hdeadline, by rw [hreasons], hdue, fun p t h hh => ?_⟩
  rw [← lossClaim_eq, lossClaim_hold_iff] at hh
  exact (Bool.not_eq_true _).mp fun hr => hh.2 ⟨hs.imp id Or.inl, hr⟩

theorem lost_lossClaims {l : List Index} (hn : l.Nodup) (hi : i ∈ l)
    (hs : (T.entry i).state = .live ∨ (T.entry i).state = .suspended) : Lost (l.foldl lossClaim T) i := by
  induction l generalizing T with
  | nil => exact absurd hi List.not_mem_nil
  | cons x l ih =>
    obtain ⟨hx, hn'⟩ := List.nodup_cons.mp hn
    rw [List.foldl_cons]
    rcases List.mem_cons.mp hi with rfl | hi'
    · exact (lost_lossClaim hs).lossClaims hx
    · have hne : i ≠ x := fun e => hx (e ▸ hi')
      have hsame := (steady_lossClaim T x).sameLife hne (by rcases hs with hs | hs <;> rw [hs] <;> decide)
      exact ih hn' hi' (hsame.1 ▸ hs)

/-- Where pins keep their law, the claims break exactly the holds that rest on a record they take: one that became
FREE meanwhile had no hold left. -/
theorem lossClaims_hold_iff {l : List Index} (hp : PinLaw T) (hn : l.Nodup) (p : PortId) (t : Token) (h : HeldHold) :
    (l.foldl lossClaim T).hold p t = .held h ↔
      T.hold p t = .held h ∧ ¬ ∃ i ∈ l, Claimed (T.entry i).state ∧ restsOn i h = true := by
  induction l generalizing T with
  | nil => simp
  | cons x l ih =>
    obtain ⟨hx, hn'⟩ := List.nodup_cons.mp hn
    have hpins : PinLaw (lossClaim T x) := by
      rw [lossClaim_eq]
      exact pinLaw_damageClaim hp x _
    rw [List.foldl_cons, ih hpins hn']
    have hsteady := steady_lossClaim T x
    have hclaimed : ∀ i ∈ l, (lossClaim T x).hold p t = .held h →
        (Claimed ((lossClaim T x).entry i).state ∧ restsOn i h = true ↔
          Claimed (T.entry i).state ∧ restsOn i h = true) := by
      intro i hi hh
      have hne : i ≠ x := fun e => hx (e ▸ hi)
      refine and_congr_left fun hr => ?_
      rcases (hsteady i).life hne with hsame | ⟨hd, hf, -⟩
      · rw [hsame.1]
      · have hzero : ((lossClaim T x).entry i).pins = 0 := (hsteady i).unpinned (fun hfree => by rw [hd] at hfree; cases hfree) hf
        have hcount := (((pinLaw_iff _).mp hpins) i).1
        exact absurd (restCount_pos hh ((restsOn_iff i h).mp hr)) (by omega)
    constructor
    · rintro ⟨hh, hno⟩
      obtain ⟨hh', hx'⟩ := (lossClaim_hold_iff T x p t h).mp hh
      refine ⟨hh', ?_⟩
      rintro ⟨i, hi, hc⟩
      rcases List.mem_cons.mp hi with rfl | hi'
      · exact hx' hc
      · exact hno ⟨i, hi', (hclaimed i hi' hh).mpr hc⟩
    · rintro ⟨hh, hno⟩
      have hh' := (lossClaim_hold_iff T x p t h).mpr ⟨hh, fun hc => hno ⟨x, List.mem_cons_self, hc⟩⟩
      exact ⟨hh', fun ⟨i, hi, hc⟩ => hno ⟨i, List.mem_cons_of_mem _ hi, (hclaimed i hi hh').mp hc⟩⟩

/-- The tokens that the breaks of a claim hold are those of the entries that are HELD no more. -/
theorem Breaks.mem_iff {reason : BreakReason} {m : PortId → List Token} (h : Breaks reason T T' m) (p : PortId)
    (t : Token) : t ∈ m p ↔ ∃ y, T.hold p t = .held y ∧ T'.hold p t ≠ .held y := by
  constructor
  · intro ht
    have hheld := h.held p t ht
    cases hy : T.hold p t with
    | held y =>
      refine ⟨y, rfl, ?_⟩
      rw [h.hold, if_pos ht]
      exact fun e => (nomatch e)
    | _ => rw [hy] at hheld; cases hheld
  · rintro ⟨y, hy, hne⟩
    by_contra ht
    rw [h.hold, if_neg ht] at hne
    exact hne hy

theorem mem_lostTokens (T : Tables) (b : BankId) (page : PageNo) (p : PortId) (t : Token) :
    t ∈ lostTokens T b page p ↔ ∃ y, T.hold p t = .held y ∧
      ∃ i ∈ pageIndices b page, Claimed (T.entry i).state ∧ restsOn i y = true := by
  have hall : t ∈ allTokens := by
    revert t
    decide
  unfold lostTokens
  rw [List.mem_filter, and_iff_right hall, List.any_eq_true]
  constructor
  · rintro ⟨i, hi, hc⟩
    have hboth : Claimed (T.entry i).state ∧ t ∈ restingTokens T i p := by
      revert hc
      cases (T.entry i).state <;> simp [Claimed]
    obtain ⟨y, hy, hr⟩ := (mem_restingTokens ..).mp hboth.2
    exact ⟨y, hy, i, hi, hboth.1, hr⟩
  · rintro ⟨y, hy, i, hi, hc, hr⟩
    have hm := (mem_restingTokens T i p t).mpr ⟨y, hy, hr⟩
    refine ⟨i, hi, ?_⟩
    rcases hc with hc | hc | hc <;> rw [hc] <;> exact decide_eq_true hm

theorem nodup_pageIndices (b : BankId) (page : PageNo) : (pageIndices b page).Nodup := by
  unfold pageIndices
  refine List.Nodup.map_on (fun m hm n hn he => ?_) List.nodup_range
  simp only [List.mem_range, indexAt, Fin.ext_iff, Fin.ofNat] at hm hn he
  have hb := b.isLt
  have hpage := page.isLt
  omega

/-- The breaks of a lost page, where pins keep their law. -/
theorem lossClaims_breaksHolds (hp : PinLaw T) (b : BankId) (page : PageNo) :
    BreaksHolds .damaged T (orderFrames T ((pageIndices b page).foldl lossClaim T)) (lostTokens T b page) := by
  obtain ⟨m, hm⟩ := lossClaims_breaks (pageIndices b page) T
  have htokens : ∀ p, (allTokens.filter fun t => decide (t ∈ m p)) = lostTokens T b page p := by
    intro p
    have hfilter : lostTokens T b page p = allTokens.filter fun t => decide (t ∈ lostTokens T b page p) := by
      unfold lostTokens
      refine List.filter_congr fun t ht => ?_
      refine Bool.eq_iff_iff.mpr ?_
      rw [decide_eq_true_iff, List.mem_filter, and_iff_right ht]
    rw [hfilter]
    refine List.filter_congr fun t _ => decide_eq_decide.mpr ?_
    rw [hm.mem_iff, mem_lostTokens]
    refine exists_congr fun y => and_congr_right fun hy => ?_
    rw [ne_eq, lossClaims_hold_iff hp (nodup_pageIndices b page), and_iff_right hy, not_not]
  have h := hm.ordered
  rw [funext htokens] at h
  exact h

end State

end Sys2Proof.Machine
end

section
/-! SUPPORT. Refresh ticks (R155, R156, R159, R160). -/

namespace Sys2Proof.Machine

open State Tables

namespace State

variable {s : State} {b : BankId}

/-! ## The positions of a lost page -/

/-- The positions of a list of records written undefined in storage. -/
def undefineAll (s : State) (l : List Index) : State := l.foldl (fun s i => s.writeStorage i (.undefined s.freeCount)) s

theorem storage_undefineAll (l : List Index) (s : State) (j : Index) :
    Table.get s.blankCell (s.undefineAll l).storage j.val =
      if j ∈ l then .undefined s.freeCount else Table.get s.blankCell s.storage j.val := by
  induction l generalizing s with
  | nil => rfl
  | cons i l ih =>
    refine (ih (s.writeStorage i (.undefined s.freeCount))).trans ?_
    show (if j ∈ l then _ else Table.get s.blankCell (Table.put s.blankCell s.storage i.val _) j.val) = _
    rw [Table.get_put]
    by_cases hl : j ∈ l
    · rw [if_pos hl, if_pos (List.mem_cons_of_mem i hl)]
      rfl
    · rw [if_neg hl]
      by_cases hi : j = i
      · rw [if_pos (congrArg Fin.val hi), if_pos (List.mem_cons.mpr (Or.inl hi))]
      · rw [if_neg fun e => hi (Fin.ext e), if_neg fun e => (List.mem_cons.mp e).elim hi hl]

/-- The state in which a missed refresh has lost the pointer page. -/
def pageLost (s : State) (b : BankId) : State :=
  (s.setBank b { s.bank b with pointer := (s.bank b).pointer + 1 }).losePage b (s.bank b).pointer

theorem pageLost_banks : (s.pageLost b).banks =
    (s.setBank b { s.bank b with pointer := (s.bank b).pointer + 1 }).banks := by
  unfold pageLost
  rw [losePage_rest]

theorem pageLost_bank (b' : BankId) : (s.pageLost b).bank b' =
    if b' = b then { s.bank b with pointer := (s.bank b).pointer + 1 } else s.bank b' := by
  unfold bank
  rw [pageLost_banks]
  exact bank_setBank s b b' _

theorem pageLost_tables : (s.pageLost b).tables = (orderFrames s.tables
    ((pageIndices b (s.bank b).pointer).foldl lossClaim s.tables)).raiseLoss b := rfl

theorem pageLost_rest : s.pageLost b = { s with
    banks := (s.pageLost b).banks
    storage := (s.pageLost b).storage
    freeCount := s.freeCount + 1
    tables := (s.pageLost b).tables } := by
  rw [pageLost_banks]
  exact losePage_rest _ _ _

theorem pageLost_cellAt (hclosed : (s.bank b).openPage.map OpenPage.page ≠ some (s.bank b).pointer) (j : Index) :
    (s.pageLost b).cellAt j =
      if j ∈ pageIndices b (s.bank b).pointer then .undefined s.freeCount else s.cellAt j := by
  have hstorage : Table.get s.blankCell (s.pageLost b).storage j.val = _ :=
    storage_undefineAll (pageIndices b (s.bank b).pointer)
      (s.setBank b { s.bank b with pointer := (s.bank b).pointer + 1 }) j
  have hblank : (s.pageLost b).blankCell = s.blankCell := by
    unfold blankCell
    rw [pageLost_rest]
  have hopen : ((s.pageLost b).bank (bankOf j)).openPage = (s.bank (bankOf j)).openPage := by
    rw [pageLost_bank]
    split
    · next h => rw [h]
    · rfl
  have hfar : ∀ op, (s.bank (bankOf j)).openPage = some op → op.page = pageOf j →
      j ∉ pageIndices b (s.bank b).pointer := by
    intro op hop hpage hj
    obtain ⟨hb, hp⟩ := (mem_pageIndices ..).mp hj
    rw [hb] at hop
    exact hclosed (by rw [hop, Option.map_some, hpage, hp])
  unfold cellAt
  rw [hblank, hopen, hstorage]
  cases hop : (s.bank (bankOf j)).openPage with
  | none => rfl
  | some op =>
    dsimp only
    by_cases hpage : op.page = pageOf j
    · rw [if_pos hpage, if_pos hpage, if_neg (hfar op hop hpage)]
    · rw [if_neg hpage, if_neg hpage]
      rfl

/-! ## The tick -/

theorem exec_refreshTick (h : s.resetAsserted = false) (b : BankId) :
    exec (.refreshTick b) s = .next (s.takeRefreshTick b) :=
  congrArg Host.Outcome.next (if_neg (by rw [h]; decide))

theorem pointerOpen_iff (k : Bank) : pointerOpen k = true ↔ k.openPage.map OpenPage.page = some k.pointer :=
  decide_eq_true_iff

theorem takeRefreshTick_of_debt (h : (s.bank b).debt < 8) : s.takeRefreshTick b =
    if isIdle (s.bank b).controller then (s.setBank b { s.bank b with debt := (s.bank b).debt + 1 }).choicePoint b
    else s.setBank b { s.bank b with debt := (s.bank b).debt + 1 } := if_pos h

theorem takeRefreshTick_of_missed (h : (s.bank b).debt = 8) : s.takeRefreshTick b = s.missedRefresh b :=
  if_neg (by rw [h]; decide)

theorem missedRefresh_of_closed (h : (s.bank b).openPage.map OpenPage.page ≠ some (s.bank b).pointer) :
    s.missedRefresh b = s.pageLost b := if_neg fun e => h ((pointerOpen_iff _).mp e)

theorem exec_retentionLoss (h : s.resetAsserted = false) (hdebt : (s.bank b).debt = 8)
    (hclosed : (s.bank b).openPage.map OpenPage.page ≠ some (s.bank b).pointer) :
    exec (.retentionLoss b) s = .next (s.pageLost b) := by
  have hno : pointerOpen (s.bank b) = false :=
    (Bool.not_eq_true _).mp fun e => hclosed ((pointerOpen_iff _).mp e)
  rw [← missedRefresh_of_closed hclosed]
  exact congrArg Host.Outcome.next (if_pos ⟨h, hdebt, hno⟩)

end State

/-- Settles O43: the debt rises, or the pointer page counts as refreshed, or it is lost. -/
theorem refreshTickCounts : Obligations.RefreshTickCounts := by
  intro s b hreset
  have hexec := State.exec_refreshTick hreset b
  refine ⟨fun hdebt hwork => ?_, fun hdebt hidle hqueue hclean => ?_, fun hdebt hopen => ?_, fun hdebt hclosed => ?_⟩
  · rw [hexec, State.takeRefreshTick_of_debt hdebt, if_neg]
    rcases hwork with h | h <;> rw [h] <;> decide
  · have hticked := sameBodies_setBank s b { s.bank b with debt := (s.bank b).debt + 1 } hclean rfl
    obtain ⟨hother, hcells, hrest⟩ := State.choicePoint_kept
      (s.setBank b { s.bank b with debt := (s.bank b).debt + 1 }) b hticked.clean
    have hmade := choiceMade_choicePoint (s.setBank b { s.bank b with debt := (s.bank b).debt + 1 }) b
    have hself : (s.setBank b { s.bank b with debt := (s.bank b).debt + 1 }).bank b =
        { s.bank b with debt := (s.bank b).debt + 1 } := by rw [bank_setBank, if_pos rfl]
    rw [hself] at hmade
    rw [State.takeRefreshTick_of_debt hdebt, if_pos ((State.isIdle_iff _).mpr hidle)] at hexec
    refine ⟨_, hexec, (hmade.refresh (Nat.succ_pos _) (Or.inl hqueue)).trans rfl, fun b' hb => ?_, fun i => ?_, ?_⟩
    · rw [hother b' hb, bank_setBank, if_neg hb]
    · rw [hcells, hticked.cells]
    · exact hrest
  · rw [hexec, State.takeRefreshTick_of_missed hdebt]
    exact congrArg Host.Outcome.next (if_pos ((State.pointerOpen_iff _).mpr hopen))
  · have hloss := State.exec_retentionLoss hreset hdebt hclosed
    rw [State.takeRefreshTick_of_missed hdebt, State.missedRefresh_of_closed hclosed] at hexec
    have hcell := State.pageLost_cellAt hclosed
    obtain ⟨m, hm⟩ := State.lossClaims_breaks (pageIndices b (s.bank b).pointer) s.tables
    have htables := State.pageLost_tables (s := s) (b := b)
    have hlost := fun i hi hs => State.lost_lossClaims (T := s.tables)
      (State.nodup_pageIndices b (s.bank b).pointer) (i := i) hi hs
    have hexact := fun hp => State.lossClaims_breaksHolds (T := s.tables) hp b (s.bank b).pointer
    have hbankLoss : ((pageIndices b (s.bank b).pointer).foldl State.lossClaim s.tables).bankLoss =
        s.tables.bankLoss := ((samePorts_closed s.tables).breaks.lossClaims _ (SamePorts.refl _)).bankLoss
    generalize (pageIndices b (s.bank b).pointer).foldl State.lossClaim s.tables = T at *
    refine ⟨hexec.trans hloss.symm, _, hloss, ?_, fun b' hb => ?_, fun i hi => (hcell i).trans (if_pos hi),
      fun i hi => (hcell i).trans (if_neg hi), fun i hi hs => ?_, fun p => ?_, fun hp => ?_, ?_, fun hno => ?_,
      State.pageLost_rest⟩
    · rw [State.pageLost_bank, if_pos rfl]
    · rw [State.pageLost_bank, if_neg hb]
    · obtain ⟨hstate, hdeadline, hreason, hdue, hunheld⟩ := hlost i hi hs
      rw [htables]
      refine ⟨hstate, hdeadline, hreason, hdue, fun p k h hh => ?_⟩
      have hrests := hunheld p k h hh
      refine ⟨fun e => ?_, fun e => ?_⟩ <;> rw [(restsOn_iff i h).mpr (by tauto)] at hrests <;> cases hrests
    · rw [htables]
      exact hm.brokenInOrder p
    · rw [htables]
      exact hexact hp
    · rw [htables]
      exact pick_place_self _ _ _
    · rw [htables]
      show Subject.bank b ∈ if pick T.bankLoss b then T.notices else T.notices ++ [.bank b]
      rw [hbankLoss, if_neg (by rw [hno]; decide)]
      exact List.mem_append_right _ (List.mem_singleton.mpr rfl)

end Sys2Proof.Machine
end

section
/-! SUPPORT. One visit of the clearing walk (R119, R186). -/

namespace Sys2Proof.Machine

open State Tables

namespace Tables

variable {T : Tables} {i a : Index}

/-! ## One alias is freed in its target's visit -/

/-- The entry of domain `dm` with the count of `n` records gone. -/
def uncounted (n : Nat) (dm : DomainId) (e : DomainEntry) : DomainEntry :=
  { e with
    count := e.count - n
    quota := if dm = commonDomain ∨ n = 0 then e.quota else e.count - n }

theorem uncounted_zero (dm : DomainId) (e : DomainEntry) : uncounted 0 dm e = e := by
  unfold uncounted
  rw [if_pos (Or.inr rfl), Nat.sub_zero]

theorem uncounted_uncounted (m n : Nat) (dm : DomainId) (e : DomainEntry) :
    uncounted n dm (uncounted m dm e) = uncounted (m + n) dm e := by
  unfold uncounted
  simp only [Nat.sub_sub, DomainEntry.mk.injEq, true_and, and_true]
  by_cases hd : dm = commonDomain
  · simp [hd]
  · by_cases hn : n = 0
    · simp [hd, hn]
    · simp [hd, hn]

theorem uncount_domain (T : Tables) (d : Option DomainId) (dm : DomainId) :
    (State.uncount T d).domain dm = uncounted (if d = some dm then 1 else 0) dm (T.domain dm) := by
  cases d with
  | none => exact (uncounted_zero dm _).symm
  | some d =>
    have hdown : ∀ x, (T.countDown d).domain x =
        if x = d then { T.domain d with count := (T.domain d).count - 1 } else T.domain x := fun x =>
      domain_setDomain T d x _
    unfold State.uncount
    dsimp only
    by_cases hdm : d = dm
    · subst hdm
      rw [if_pos rfl]
      unfold uncounted
      by_cases hc : d = commonDomain
      · rw [if_pos hc, hdown, if_pos rfl, if_pos (Or.inl hc)]
      · rw [if_neg hc, domain_setDomain, if_pos rfl, hdown, if_pos rfl]
        simp only [Nat.one_ne_zero, or_false]
        rw [if_neg hc]
    · rw [if_neg fun e => hdm (Option.some.inj e), uncounted_zero]
      by_cases hc : d = commonDomain
      · rw [if_pos hc, hdown, if_neg (Ne.symm hdm)]
      · rw [if_neg hc, domain_setDomain, if_neg (Ne.symm hdm), hdown, if_neg (Ne.symm hdm)]

theorem uncount_rest (T : Tables) (d : Option DomainId) :
    State.uncount T d = { T with domains := (State.uncount T d).domains } := by
  cases d with
  | none => rfl
  | some d =>
    unfold State.uncount
    dsimp only
    split_ifs <;> rfl

theorem leaveTarget_rest (T : Tables) (a t : Index) :
    T.leaveTarget a t = { T with rst := (T.leaveTarget a t).rst } := modEntry_rest T t _

theorem wipeAlias_rest (T : Tables) (a : Index) : wipeAlias T a = { T with
    rst := (wipeAlias T a).rst
    domains := (State.uncount T (T.entry a).domain).domains
    freeList := T.freeList ++ [a]
    expiryQueue := T.expiryQueue.filter fun x => x.2 != a
    notices := T.notices.filter fun x => x != .record a } := by
  have hcount := uncount_rest T (T.entry a).domain
  unfold wipeAlias dropNotice
  generalize State.uncount T (T.entry a).domain = U at hcount ⊢
  have hleave := leaveQueue_rest U a
  generalize U.leaveQueue a = V at hleave ⊢
  have hset := setEntry_rest V a (.freeAt (T.entry a).generation)
  generalize V.setEntry a (.freeAt (T.entry a).generation) = W at hset ⊢
  have hW : W = { T with rst := W.rst, domains := U.domains, expiryQueue := T.expiryQueue.filter fun x => x.2 != a } := by
    refine hset.trans ?_
    have hV : { V with rst := W.rst } = { U with
        rst := W.rst, expiryQueue := U.expiryQueue.filter fun x => x.2 != a } :=
      congrArg (fun X : Tables => { X with rst := W.rst }) hleave
    exact hV.trans (congrArg (fun X : Tables => { X with
      rst := W.rst, domains := U.domains, expiryQueue := X.expiryQueue.filter fun x => x.2 != a }) hcount)
  exact congrArg (fun X : Tables => { X with
    notices := X.notices.filter fun x => x != Subject.record a, freeList := X.freeList ++ [a], rst := W.rst }) hW

theorem clearAlias_rest (T : Tables) (a : Index) : State.clearAlias T a = { T with
    rst := (State.clearAlias T a).rst
    domains := (State.uncount T (T.entry a).domain).domains
    freeList := T.freeList ++ [a]
    expiryQueue := T.expiryQueue.filter fun x => x.2 != a
    notices := T.notices.filter fun x => x != .record a } := by
  rw [clearAlias_eq]
  cases (T.entry a).target with
  | none => exact wipeAlias_rest T a
  | some t =>
    have hwipe := wipeAlias_rest T a
    have hleave := leaveTarget_rest (wipeAlias T a) a t
    dsimp only
    generalize (wipeAlias T a).leaveTarget a t = V at hleave ⊢
    exact hleave.trans (congrArg (fun X : Tables => { X with rst := V.rst }) hwipe)

theorem clearAlias_entry (T : Tables) (a j : Index) : (State.clearAlias T a).entry j =
    if (T.entry a).target = some j then { (wipeAlias T a).entry j with
      aliases := ((wipeAlias T a).entry j).aliases.erase a } else (wipeAlias T a).entry j := by
  rw [clearAlias_eq]
  cases (T.entry a).target with
  | none => exact (if_neg fun h => nomatch h).symm
  | some t =>
    dsimp only
    rw [leaveTarget_entry]
    by_cases h : j = t
    · rw [if_pos h, if_pos (congrArg some h.symm)]
    · rw [if_neg h, if_neg fun e => h (Option.some.inj e).symm]

theorem clearAlias_generation (T : Tables) (a j : Index) :
    ((State.clearAlias T a).entry j).generation = (T.entry j).generation := by
  have hwipe : ((wipeAlias T a).entry j).generation = (T.entry j).generation := by
    rw [wipeAlias_entry]
    split
    · next h => rw [h]; rfl
    · rfl
  rw [clearAlias_entry]
  split_ifs <;> exact hwipe

/-- What is FREE at a generation stays so. -/
theorem clearAlias_freeAt {j : Index} {g : Generation} (h : T.entry j = .freeAt g ∨ j = a ∧ (T.entry a).generation = g) :
    (State.clearAlias T a).entry j = .freeAt g := by
  have hwipe : (wipeAlias T a).entry j = .freeAt g := by
    rw [wipeAlias_entry]
    split
    · next hj =>
      rcases h with h | ⟨-, h⟩
      · rw [hj] at h
        rw [h]
        rfl
      · rw [h]
    · next hj => exact h.resolve_right fun e => hj e.1
  rw [clearAlias_entry, hwipe]
  split_ifs <;> rfl

/-! ## The aliases of the record visited -/

theorem clearAliases_freeAt {l : List Index} {j : Index} {g : Generation}
    (h : T.entry j = .freeAt g ∨ j ∈ l ∧ (T.entry j).generation = g) :
    (l.foldl State.clearAlias T).entry j = .freeAt g := by
  induction l generalizing T with
  | nil => exact h.resolve_right fun e => nomatch e.1
  | cons a l ih =>
    refine ih ?_
    rcases h with h | ⟨hj, hg⟩
    · exact Or.inl (clearAlias_freeAt (Or.inl h))
    · rcases List.mem_cons.mp hj with rfl | hj
      · exact Or.inl (clearAlias_freeAt (Or.inr ⟨rfl, hg⟩))
      · exact Or.inr ⟨hj, (clearAlias_generation T a j).trans hg⟩

theorem clearAliases_notices (l : List Index) (T : Tables) :
    (l.foldl State.clearAlias T).notices = T.notices.filter fun x => decide (∀ a ∈ l, x ≠ .record a) := by
  induction l generalizing T with
  | nil => simp
  | cons a l ih =>
    rw [List.foldl_cons, ih, clearAlias_rest, List.filter_filter]
    refine List.filter_congr fun x _ => ?_
    simp [bne, Bool.and_comm, beq_eq_decide]

/-- The tables after the aliases `l` of record `i` have been freed. -/
structure AliasesCleared (i : Index) (l : List Index) (T T' : Tables) : Prop where
  entry : ∀ j, j ∉ i :: l → T'.entry j = T.entry j
  domain : ∀ dm, T'.domain dm =
    uncounted (l.filter fun x => decide ((T.entry x).domain = some dm)).length dm (T.domain dm)
  freeList : T'.freeList = T.freeList ++ l
  expiryQueue : T'.expiryQueue = T.expiryQueue.filter fun x => decide (x.2 ∉ l)
  rest : T' = { T with
    rst := T'.rst
    domains := T'.domains
    freeList := T'.freeList
    expiryQueue := T'.expiryQueue
    notices := T'.notices }

theorem aliasesCleared {l : List Index} (hn : l.Nodup) (hl : ∀ a ∈ l, a ≠ i ∧ (T.entry a).target = some i) :
    AliasesCleared i l T (l.foldl State.clearAlias T) := by
  induction l generalizing T with
  | nil =>
    refine ⟨fun j _ => rfl, fun dm => ?_, (List.append_nil _).symm, ?_, rfl⟩
    · exact (uncounted_zero dm _).symm
    · simp
  | cons a l ih =>
    obtain ⟨ha, hn'⟩ := List.nodup_cons.mp hn
    have htarget := (hl a List.mem_cons_self).2
    have hone : ∀ j, j ≠ i → j ≠ a → (State.clearAlias T a).entry j = T.entry j := by
      intro j hi hj
      rw [clearAlias_entry, htarget, if_neg fun e => hi (Option.some.inj e).symm, wipeAlias_entry, if_neg hj]
    have hne : ∀ x ∈ l, x ≠ a := fun x hx e => ha (e ▸ hx)
    have hrest := clearAlias_rest T a
    have hdomain : ∀ dm, (State.clearAlias T a).domain dm =
        uncounted (if (T.entry a).domain = some dm then 1 else 0) dm (T.domain dm) := fun dm => by
      rw [← uncount_domain]
      unfold domain
      rw [hrest]
    have h := ih (T := State.clearAlias T a) hn' fun x hx => by
      obtain ⟨hxi, hxt⟩ := hl x (List.mem_cons_of_mem a hx)
      exact ⟨hxi, by rw [hone x hxi (hne x hx)]; exact hxt⟩
    rw [List.foldl_cons]
    generalize l.foldl State.clearAlias (State.clearAlias T a) = T' at h
    refine ⟨fun j hj => ?_, fun dm => ?_, ?_, ?_, ?_⟩
    · simp only [List.mem_cons, not_or] at hj
      rw [h.entry j (by simp [hj.1, hj.2.2]), hone j hj.1 hj.2.1]
    · have hsame : (l.filter fun x => decide (((State.clearAlias T a).entry x).domain = some dm)) =
          l.filter fun x => decide ((T.entry x).domain = some dm) := List.filter_congr fun x hx => by
        rw [hone x (hl x (List.mem_cons_of_mem a hx)).1 (hne x hx)]
      rw [h.domain, hsame, hdomain, uncounted_uncounted, List.filter_cons]
      by_cases hd : (T.entry a).domain = some dm
      · simp only [hd, if_true, decide_true, List.length_cons, Nat.add_comm]
      · simp only [hd, if_false, decide_false, Bool.false_eq_true, Nat.zero_add]
    · rw [h.freeList, hrest, List.append_assoc, List.singleton_append]
    · rw [h.expiryQueue, hrest, List.filter_filter]
      refine List.filter_congr fun x _ => ?_
      simp [bne, Bool.and_comm, beq_eq_decide]
    · refine h.rest.trans ?_
      exact congrArg (fun X : Tables => { X with
        rst := T'.rst, domains := T'.domains, freeList := T'.freeList, expiryQueue := T'.expiryQueue,
        notices := T'.notices }) hrest

/-! ## The record visited -/

/-- Step 2 of a visit (R186). -/
def linksCleared (T : Tables) (i : Index) : Tables :=
  if (T.entry i).state = .free then T else State.clearLinks (State.uncount T (T.entry i).domain) i

/-- A record leaves its target's list, at the start of its links' clearing. -/
def leftTarget (T : Tables) (i : Index) : Tables :=
  match (T.entry i).target with
  | some t => (State.uncount T (T.entry i).domain).leaveTarget i t
  | none => State.uncount T (T.entry i).domain

theorem linksCleared_eq (T : Tables) (i : Index) : linksCleared T i =
    if (T.entry i).state = .free then T else (T.entry i).aliases.foldl State.clearAlias (leftTarget T i) := by
  have h : State.clearLinks (State.uncount T (T.entry i).domain) i =
      (T.entry i).aliases.foldl State.clearAlias (leftTarget T i) := by
    unfold State.clearLinks
    dsimp only
    rw [uncount_entry]
    unfold leftTarget
    cases (T.entry i).target <;> rfl
  rw [linksCleared, h]

theorem leftTarget_entry (T : Tables) (i j : Index) : (leftTarget T i).entry j = { T.entry j with
    aliases := if (T.entry i).target = some j then (T.entry j).aliases.erase i else (T.entry j).aliases } := by
  unfold leftTarget
  cases (T.entry i).target with
  | none => simp only [uncount_entry, reduceCtorEq, if_false]
  | some t =>
    dsimp only
    rw [leaveTarget_entry, uncount_entry]
    by_cases h : j = t
    · rw [if_pos h, if_pos (congrArg some h.symm)]
    · rw [if_neg h, if_neg fun e => h (Option.some.inj e).symm]

theorem leftTarget_rest (T : Tables) (i : Index) : leftTarget T i = { T with
    rst := (leftTarget T i).rst, domains := (State.uncount T (T.entry i).domain).domains } := by
  have hcount := uncount_rest T (T.entry i).domain
  unfold leftTarget
  cases (T.entry i).target with
  | none => exact hcount.trans (by rw [hcount])
  | some t =>
    dsimp only
    generalize State.uncount T (T.entry i).domain = U at hcount ⊢
    have hleave := leaveTarget_rest U i t
    generalize U.leaveTarget i t = V at hleave ⊢
    exact hleave.trans (congrArg (fun X : Tables => { X with rst := V.rst }) hcount)

/-- The tables of a visit with the record itself freed. -/
def recordCleared (T : Tables) (i : Index) : Tables :=
  ((linksCleared T i).leaveQueue i).setEntry i (.freeAt ((T.entry i).generation + 1))

theorem clearEntry_eq (T : Tables) (i : Index) : State.clearEntry T i =
    State.requeue (if (T.entry i).reasons.isEmpty = true then recordCleared T i
      else State.dropNotice (recordCleared T i) i) i :=
  rfl

theorem recordCleared_entry (T : Tables) {i : Index} (hi : i ≠ 0) (j : Index) : (recordCleared T i).entry j =
    if j = i then .freeAt ((T.entry i).generation + 1) else (linksCleared T i).entry j := by
  unfold recordCleared
  rw [entry_setEntry]
  by_cases h : j = i
  · rw [if_pos ⟨h, hi⟩, if_pos h]
  · rw [if_neg fun e => h e.1, if_neg h, leaveQueue_entry, if_neg h]

theorem recordCleared_rest (T : Tables) (i : Index) : recordCleared T i = { linksCleared T i with
    rst := (recordCleared T i).rst
    expiryQueue := (linksCleared T i).expiryQueue.filter fun x => x.2 != i } := by
  unfold recordCleared
  generalize linksCleared T i = U
  have hleave := leaveQueue_rest U i
  generalize U.leaveQueue i = V at hleave ⊢
  have hset := setEntry_rest V i (.freeAt ((T.entry i).generation + 1))
  generalize V.setEntry i (.freeAt ((T.entry i).generation + 1)) = W at hset ⊢
  exact hset.trans (congrArg (fun X : Tables => { X with rst := W.rst }) hleave)

theorem clearEntry_entry (T : Tables) {i : Index} (hi : i ≠ 0) (j : Index) : (State.clearEntry T i).entry j =
    if j = i then .freeAt ((T.entry i).generation + 1) else (linksCleared T i).entry j := by
  rw [clearEntry_eq, ← recordCleared_entry T hi]
  split_ifs <;> rfl

theorem clearEntry_rest (T : Tables) (i : Index) : State.clearEntry T i = { linksCleared T i with
    rst := (State.clearEntry T i).rst
    freeList := ((linksCleared T i).freeList.filter fun x => x != i) ++ [i]
    expiryQueue := (linksCleared T i).expiryQueue.filter fun x => x.2 != i
    notices := if (T.entry i).reasons.isEmpty = true then (linksCleared T i).notices
      else (linksCleared T i).notices.filter fun x => x != .record i } := by
  have h := recordCleared_rest T i
  rw [clearEntry_eq]
  generalize recordCleared T i = W at h ⊢
  by_cases he : (T.entry i).reasons.isEmpty = true
  · simp only [if_pos he]
    exact congrArg (fun X : Tables => { X with
      rst := W.rst, freeList := (X.freeList.filter fun x => x != i) ++ [i] }) h
  · simp only [if_neg he]
    exact congrArg (fun X : Tables => { X with
      rst := W.rst, freeList := (X.freeList.filter fun x => x != i) ++ [i],
      notices := X.notices.filter fun x => x != Subject.record i }) h

end Tables

end Sys2Proof.Machine
end

section
/-! SUPPORT. The rule of the clearing walk, where the records keep their laws (R119, R186). -/

namespace Sys2Proof.Machine

open State Tables

namespace Tables

variable {T : Tables} {i : Index}

/-- The tables after step 2 of a visit to record `i`, where the records keep their laws. -/
structure LinksCleared (T : Tables) (i : Index) (T' : Tables) : Prop where
  entry : ∀ j, j ∉ i :: (T.entry i).aliases → T'.entry j = { T.entry j with
    aliases := if (T.entry i).target = some j then (T.entry j).aliases.erase i else (T.entry j).aliases }
  domain : ∀ dm, T'.domain dm = uncounted
    ((i :: (T.entry i).aliases).filter fun x => decide ((T.entry x).domain = some dm)).length dm (T.domain dm)
  freeList : T'.freeList = T.freeList ++ (T.entry i).aliases
  expiryQueue : T'.expiryQueue = T.expiryQueue.filter fun x => decide (x.2 ∉ (T.entry i).aliases)
  notices : T'.notices = T.notices.filter fun x => decide (∀ a ∈ (T.entry i).aliases, x ≠ .record a)
  rest : T' = { T with
    rst := T'.rst
    domains := T'.domains
    freeList := T'.freeList
    expiryQueue := T'.expiryQueue
    notices := T'.notices }

/-- No record stands in its own alias list. -/
theorem not_mem_own_aliases (he : EntryLaw T) (ha : AliasLaw T) (i : Index) : i ∉ (T.entry i).aliases := by
  intro hi
  have htarget := (ha.1 i i).mp hi
  have hlive : (T.entry i).state ≠ .free := fun hf => by
    obtain ⟨-, -, ht, -⟩ := (he i).1 hf
    rw [ht] at htarget
    cases htarget
  rcases ((he i).2.1 hlive).2 with ⟨-, ht⟩ | ⟨-, -, hal⟩
  · rw [ht] at htarget
    cases htarget
  · rw [hal] at hi
    cases hi

theorem linksCleared_of_free (he : EntryLaw T) (hs : (T.entry i).state = .free) : LinksCleared T i (linksCleared T i) := by
  obtain ⟨hdomain, -, htarget, haliases, -⟩ := (he i).1 hs
  have heq : linksCleared T i = T := if_pos hs
  rw [heq]
  refine ⟨fun j _ => by simp [htarget], fun dm => ?_, by simp [haliases], by simp [haliases], by simp [haliases], rfl⟩
  simp [haliases, hdomain, uncounted_zero]

theorem linksCleared_of_used (he : EntryLaw T) (ha : AliasLaw T) (hs : (T.entry i).state ≠ .free) :
    LinksCleared T i (linksCleared T i) := by
  have heq : linksCleared T i = (T.entry i).aliases.foldl State.clearAlias (leftTarget T i) := by
    rw [linksCleared_eq, if_neg hs]
  have hnot := not_mem_own_aliases he ha i
  have hleft := leftTarget_rest T i
  have h := aliasesCleared (T := leftTarget T i) (i := i) (ha.2 i).1 fun a hmem => by
    rw [leftTarget_entry]
    exact ⟨fun e => hnot (e ▸ hmem), (ha.1 i a).mp hmem⟩
  have hnotices := clearAliases_notices (T.entry i).aliases (leftTarget T i)
  rw [← heq] at h hnotices
  have hdomain : ∀ dm, (leftTarget T i).domain dm =
      uncounted (if (T.entry i).domain = some dm then 1 else 0) dm (T.domain dm) := fun dm => by
    rw [← uncount_domain]
    unfold domain
    rw [hleft]
  refine ⟨fun j hj => ?_, fun dm => ?_, ?_, ?_, ?_, ?_⟩
  · rw [h.entry j hj, leftTarget_entry]
  · have hsame : ((T.entry i).aliases.filter fun x => decide (((leftTarget T i).entry x).domain = some dm)) =
        (T.entry i).aliases.filter fun x => decide ((T.entry x).domain = some dm) :=
      List.filter_congr fun x _ => by rw [leftTarget_entry]
    rw [h.domain, hsame, hdomain, uncounted_uncounted, List.filter_cons]
    by_cases hd : (T.entry i).domain = some dm
    · simp only [hd, if_true, decide_true, List.length_cons, Nat.add_comm]
    · simp only [hd, if_false, decide_false, Bool.false_eq_true, Nat.zero_add]
  · rw [h.freeList, hleft]
  · rw [h.expiryQueue, hleft]
  · rw [hnotices, hleft]
  · refine h.rest.trans ?_
    exact congrArg (fun X : Tables => { X with
      rst := (linksCleared T i).rst, domains := (linksCleared T i).domains, freeList := (linksCleared T i).freeList,
      expiryQueue := (linksCleared T i).expiryQueue, notices := (linksCleared T i).notices }) hleft

theorem linksCleared_of_laws (he : EntryLaw T) (ha : AliasLaw T) (i : Index) : LinksCleared T i (linksCleared T i) := by
  by_cases hs : (T.entry i).state = .free
  · exact linksCleared_of_free he hs
  · exact linksCleared_of_used he ha hs

/-! ## What a visit leaves -/

section Visit

variable (T)

theorem clearEntry_self (hi : i ≠ 0) : (State.clearEntry T i).entry i = .freeAt ((T.entry i).generation + 1) := by
  rw [clearEntry_entry T hi, if_pos rfl]

theorem clearEntry_freeList : ∃ l, (State.clearEntry T i).freeList = l ++ [i] ∧ i ∉ l := by
  refine ⟨(linksCleared T i).freeList.filter fun x => x != i, by rw [clearEntry_rest], fun h => ?_⟩
  simpa using (List.mem_filter.mp h).2

theorem clearEntry_not_noticed (h : (T.entry i).reasons ≠ ⟨false, false, false, false⟩) :
    Subject.record i ∉ (State.clearEntry T i).notices := by
  rw [clearEntry_rest, if_neg fun e => h ((isEmpty_iff _).mp e)]
  intro hm
  simpa using (List.mem_filter.mp hm).2

theorem clearEntry_alias (hi : i ≠ 0) (hs : (T.entry i).state ≠ .free) {a : Index} (ha : a ∈ (T.entry i).aliases)
    (hai : a ≠ i) : (State.clearEntry T i).entry a = .freeAt (T.entry a).generation ∧
      Subject.record a ∉ (State.clearEntry T i).notices := by
  have heq : linksCleared T i = (T.entry i).aliases.foldl State.clearAlias (leftTarget T i) := by
    rw [linksCleared_eq, if_neg hs]
  refine ⟨?_, ?_⟩
  · rw [clearEntry_entry T hi, if_neg hai, heq]
    exact clearAliases_freeAt (Or.inr ⟨ha, by rw [leftTarget_entry]⟩)
  · have hno : Subject.record a ∉ (linksCleared T i).notices := by
      rw [heq, clearAliases_notices]
      intro hm
      exact of_decide_eq_true (List.mem_filter.mp hm).2 a ha rfl
    rw [clearEntry_rest]
    dsimp only
    split
    · exact hno
    · exact fun hm => hno (List.mem_filter.mp hm).1

end Visit

/-- The tables after a visit to record `i`, where the records keep their laws. -/
structure Cleared (T : Tables) (i : Index) (T' : Tables) : Prop where
  entry : ∀ j, j ∉ i :: (T.entry i).aliases → T'.entry j = { T.entry j with
    aliases := if (T.entry i).target = some j then (T.entry j).aliases.erase i else (T.entry j).aliases }
  domain : ∀ dm, T'.domain dm = uncounted
    ((i :: (T.entry i).aliases).filter fun x => decide ((T.entry x).domain = some dm)).length dm (T.domain dm)
  freeList : T'.freeList = ((T.freeList ++ (T.entry i).aliases).filter fun x => x != i) ++ [i]
  expiryQueue : T'.expiryQueue = T.expiryQueue.filter fun x => decide (x.2 ∉ i :: (T.entry i).aliases)
  rest : T' = { T with
    rst := T'.rst
    domains := T'.domains
    freeList := T'.freeList
    expiryQueue := T'.expiryQueue
    notices := T'.notices }

theorem cleared_clearEntry (he : EntryLaw T) (ha : AliasLaw T) (hi : i ≠ 0) : Cleared T i (State.clearEntry T i) := by
  have h := linksCleared_of_laws he ha i
  have hrest := clearEntry_rest T i
  have hentry := clearEntry_entry T hi
  generalize linksCleared T i = U at h hrest hentry
  generalize State.clearEntry T i = V at hrest hentry
  refine ⟨fun j hj => ?_, fun dm => ?_, ?_, ?_, ?_⟩
  · rw [hentry, if_neg fun e : j = i => hj (List.mem_cons.mpr (Or.inl e)), h.entry j hj]
  · rw [← h.domain]
    unfold domain
    rw [hrest]
  · rw [hrest, ← h.freeList]
  · rw [hrest, h.expiryQueue, List.filter_filter]
    refine List.filter_congr fun x _ => ?_
    simp [bne, beq_eq_decide]
  · have hdomains : V.domains = U.domains := by rw [hrest]
    refine hrest.trans ?_
    rw [hdomains]
    have hfree : V.freeList = (U.freeList.filter fun x => x != i) ++ [i] := by rw [hrest]
    have hqueue : V.expiryQueue = U.expiryQueue.filter fun x => x.2 != i := by rw [hrest]
    have hnotices : V.notices = if (T.entry i).reasons.isEmpty = true then U.notices
      else U.notices.filter fun x => x != .record i := by rw [hrest]
    rw [hfree, hqueue, hnotices]
    exact congrArg (fun X : Tables => { X with
      rst := V.rst, freeList := (U.freeList.filter fun x => x != i) ++ [i]
      expiryQueue := U.expiryQueue.filter fun x => x.2 != i
      notices := if (T.entry i).reasons.isEmpty = true then U.notices
        else U.notices.filter fun x => x != Subject.record i }) h.rest

/-- The RECORD subjects of the records freed leave the Notice List (R186 step 4). -/
theorem clearEntry_notices (he : EntryLaw T) (ha : AliasLaw T)
    (hn : (T.entry i).reasons.isEmpty = true → Subject.record i ∉ T.notices) :
    (State.clearEntry T i).notices =
      T.notices.filter fun x => decide (∀ a ∈ i :: (T.entry i).aliases, x ≠ .record a) := by
  have h := linksCleared_of_laws he ha i
  rw [clearEntry_rest]
  dsimp only
  rw [h.notices]
  by_cases hr : (T.entry i).reasons.isEmpty = true
  · rw [if_pos hr]
    refine List.filter_congr fun x hx => ?_
    have hxi : x ≠ .record i := fun e => hn hr (e ▸ hx)
    simp [hxi]
  · rw [if_neg hr, List.filter_filter]
    refine List.filter_congr fun x _ => ?_
    simp [bne, beq_eq_decide]

end Tables

namespace State

variable {s : State}

theorem exec_clearingWalkVisit {i : Index} (h : s.clearWalk = some i) : exec .clearingWalkVisit s =
    .next (if i = 4095 then
      State.answer { s with tables := clearEntry s.tables i, clearWalk := none, partState := .ready } .done []
    else { s with tables := clearEntry s.tables i, clearWalk := some (i + 1) }) := by
  show Host.Outcome.next s.clearingWalkVisit = _
  unfold clearingWalkVisit
  simp only [h]
  rfl

end State

/-- Settles O50: the record visited, its aliases, and the last visit. -/
theorem clearingWalkFrees : Obligations.ClearingWalkFrees := by
  intro s
  refine ⟨fun h => ?_, fun i e hw hi he => ?_⟩
  · show Host.Outcome.next s.clearingWalkVisit = _
    unfold State.clearingWalkVisit
    rw [h]
  subst he
  have hexec := State.exec_clearingWalkVisit hw
  have htables : (if i = 4095 then
      State.answer { s with tables := clearEntry s.tables i, clearWalk := none, partState := .ready } .done []
      else { s with tables := clearEntry s.tables i, clearWalk := some (i + 1) }).tables = clearEntry s.tables i := by
    split_ifs
    · rw [State.answer_rest]
    · rfl
  refine ⟨_, hexec, ?_⟩
  rw [htables]
  refine ⟨clearEntry_self s.tables hi, clearEntry_freeList s.tables, clearEntry_not_noticed s.tables,
    fun hs a ha hai => clearEntry_alias s.tables hi hs ha hai, fun hlaw halias => ?_, fun h => if_neg h,
    fun h x hx => ?_⟩
  · have hcleared := cleared_clearEntry hlaw halias hi
    refine ⟨hcleared.entry, hcleared.domain, hcleared.freeList, hcleared.expiryQueue, fun hn => ?_, hcleared.rest⟩
    refine clearEntry_notices hlaw halias fun hr hm => ?_
    have howes := (hn.2 _).mp hm
    simp [owes, hr] at howes
  · rw [if_pos h]
    exact (State.answer_of_engine (s := { s with
      tables := clearEntry s.tables i, clearWalk := none, partState := .ready }) hx .done []).trans rfl

end Sys2Proof.Machine
end

section
/-! SUPPORT. The laws of the records in every operation that frees, breaks, retires or damages (R12, R13, R15, R52 to
R56, R63 to R67, R89, R90). -/

namespace Sys2Proof.Machine.State

open Tables

/-- The laws of the records in the midst of a claim, no index waiting to join the free list. -/
structure Recs (T0 : Tables) (X : Index → Prop) (T : Tables) : Prop where
  core : Core T
  rest : Rest T0 [] X T

namespace Rest

variable {T0 T : Tables} {S : List Index} {X : Index → Prop} {i t : Index}

/-- Only a LIVE or SUSPENDED record has a deadline. -/
theorem undated (h : Rest T0 S X T) (hl : (T.entry i).state ≠ .live) (hs : (T.entry i).state ≠ .suspended) :
    (T.entry i).deadline = none := by
  by_contra hd
  exact (h.expiry.2.1 i hd).elim hl hs

/-- A record that does not complete is no longer exempt. -/
theorem not_completes (h : Rest T0 S (fun j => X j ∨ j = t) T) (ht : completes (T.entry t) = false ∨ X t) :
    Rest T0 S X T := by
  refine h.settled fun j hj hs => ?_
  rcases hj with hj | rfl
  · exact Or.inl hj
  · refine ht.elim (fun hc => ?_) Or.inl
    by_contra hno
    obtain ⟨-, hpins, haliases⟩ := not_or.mp hno |>.imp_right not_or.mp
    have : completes (T.entry j) = true :=
      (completes_iff _).mpr ⟨hs, Nat.eq_zero_of_not_pos hpins, not_not.mp haliases⟩
    rw [hc] at this
    cases this

/-- A record that is not DRAINING needs no exemption. -/
theorem not_draining (h : Rest T0 S (fun j => X j ∨ j = t) T) (ht : (T.entry t).state ≠ .draining) : Rest T0 S X T :=
  h.settled fun _ hj hs => hj.imp_right fun e => absurd (e ▸ hs) ht

/-- The target of a freed alias is tested, and freed in its turn (R15 step 4). -/
theorem testTarget (h : Rest T0 S (fun j => X j ∨ j = t) T) (hc : Core T) (skip : Option Index)
    (ht : (T.entry t).target = none) (hS : ∀ j ∈ S, (T.entry j).state = .free) (hskip : skip = some t → X t) :
    Rest T0 S X (testTarget skip T t) := by
  rw [testTarget_eq T skip t ht]
  split_ifs with hcond
  · obtain ⟨hs, hpins, haliases⟩ := Core.of_completes hcond.2
    obtain ⟨r1, r2, r3, r4, r5⟩ := Core.raiseRecord_fields T t .drained t
    have hne : ((T.raiseRecord t .drained).entry t).state ≠ .free := by rw [r1, hs]; decide
    have hdead := h.undated (i := t) (by rw [hs]; decide) (by rw [hs]; decide)
    have hfreed := (h.raiseRecord t .drained).freed (hc.raiseRecord t .drained) t hne (r2.trans hpins)
      (r3.trans haliases) (r5.trans hdead)
    have hstate : (((T.raiseRecord t .drained).freed t).entry t).state = .free := by
      rw [freed_entry _ t t (Core.ne_zero hne), if_pos rfl]
      rfl
    have hnot : t ∉ S := fun hm => by
      rw [hS t hm] at hs
      cases hs
    have hjoined := joinOrPark t hfreed hnot hstate (Core.ne_zero hne)
    refine Rest.not_draining (t := t) (hjoined.exempt fun j hj => ?_) ?_
    · rcases hj with hj | hj
      · exact hj
      · rw [r4, ht] at hj
        cases hj
    · rw [joinOrPark_entry, hstate]
      decide
  · refine h.not_completes ?_
    rw [not_and_or, not_not, Bool.not_eq_true] at hcond
    exact hcond.symm.imp_right hskip

end Rest

namespace Recs

variable {T0 T T' : Tables} {X X' : Index → Prop} {i : Index}

theorem exempt (h : Recs T0 X T) (hX : ∀ j, X j → X' j) : Recs T0 X' T := ⟨h.core, h.rest.exempt hX⟩

/-- A FREE record has joined the free list or is parked (R15). -/
theorem becomeFree (h : Recs T0 (fun j => X j ∨ j = i) T) (skip : Option Index) (hi : (T.entry i).state ≠ .free)
    (hpins : (T.entry i).pins = 0) (haliases : (T.entry i).aliases = []) (hdead : (T.entry i).deadline = none)
    (hskip : ∀ j, skip = some j → X j) : Recs T0 X (becomeFree skip T i) := by
  have h0 := Core.ne_zero hi
  refine ⟨h.core.becomeFree skip i hi hpins haliases, ?_⟩
  have hself := becomeFree_self (T := T) skip h0
  have hcore := h.core.freed i hi hpins haliases
  have hfreed := h.rest.freed h.core i hi hpins haliases hdead
  have hstate : ((T.freed i).entry i).state = .free := by
    rw [freed_entry T i i h0, if_pos rfl]
    rfl
  refine Rest.not_draining (t := i) ?_ (by rw [hself]; exact fun e => nomatch e)
  rw [becomeFree_eq]
  cases ht : (T.entry i).target with
  | none =>
    refine Rest.joinOrPark i (hfreed.exempt fun j hj => ?_) List.not_mem_nil hstate h0
    refine hj.resolve_right fun e => ?_
    rw [ht] at e
    cases e
  | some t =>
    have htested := Rest.testTarget (X := fun j => X j ∨ j = i) (t := t) (hfreed.exempt fun j hj => ?_) hcore skip
      (h.core.freed_target hi ht) (fun j hj => ?_) fun e => Or.inl (hskip t e)
    · refine Rest.joinOrPark i htested List.not_mem_nil ?_ h0
      rw [testTarget_entry_ne skip (Or.inr hstate)]
      exact hstate
    · rw [ht] at hj
      exact hj.imp_right fun e => (Option.some.inj e).symm
    · rw [List.mem_singleton.mp hj]
      exact hstate

theorem testDraining (h : Recs T0 (fun j => X j ∨ j = i) T) (skip : Option Index) (hskip : ∀ j, skip = some j → X j) :
    Recs T0 X (testDraining skip T i) := by
  unfold Tables.testDraining
  split_ifs with hc
  · obtain ⟨hs, hp, ha⟩ := Core.of_completes hc.2
    obtain ⟨r1, r2, r3, -, r5⟩ := Core.raiseRecord_fields T i .drained i
    have hdead := h.rest.undated (i := i) (by rw [hs]; decide) (by rw [hs]; decide)
    exact becomeFree ⟨h.core.raiseRecord i .drained, h.rest.raiseRecord i .drained⟩ skip (by rw [r1, hs]; decide)
      (r2.trans hp) (r3.trans ha) (r5.trans hdead) hskip
  · rw [not_and_or, not_not, Bool.not_eq_true] at hc
    exact ⟨h.core, h.rest.not_completes (hc.symm.imp_right (hskip i))⟩

/-- The records that a hold rested on are tested (R55). -/
theorem testRecords (y : HeldHold) (h : Recs T0 (fun j => X j ∨ j = y.index ∨ j = y.resolved) T) (skip : Option Index)
    (hskip : ∀ j, skip = some j → X j) : Recs T0 X (testRecords skip T y) := by
  unfold Tables.testRecords
  dsimp only
  split_ifs with he
  · rw [he] at h
    exact testDraining (h.exempt fun j hj => hj.imp_right fun e => e.elim id id) skip hskip
  · have hfirst : Recs T0 (fun j => X j ∨ j = y.resolved) (Tables.testDraining skip T y.index) :=
      testDraining (h.exempt fun j hj => by tauto) skip fun j hj => Or.inl (hskip j hj)
    exact hfirst.testDraining skip hskip

theorem raiseRecord (h : Recs T0 X T) (i : Index) (r : RecReason) : Recs T0 X (T.raiseRecord i r) :=
  ⟨h.core.raiseRecord i r, h.rest.raiseRecord i r⟩

theorem leaveQueue (h : Recs T0 X T) (i : Index) : Recs T0 X (T.leaveQueue i) :=
  ⟨h.core.leaveQueue i, h.rest.leaveQueue h.core i⟩

theorem enterQueue (h : Recs T0 X T) (i : Index) (d : Epoch)
    (hi : (T.entry i).state = .live ∨ (T.entry i).state = .suspended) : Recs T0 X (T.enterQueue i d) :=
  ⟨h.core.enterQueue i d (by rcases hi with hi | hi <;> rw [hi] <;> decide), h.rest.enterQueue h.core i d hi⟩

/-- The end of a hold, before the records that it rested on are tested (R55). -/
theorem ended (h : Recs T0 X T) (p : PortId) (t : Token) (y : HeldHold) (hy : T.hold p t = .held y) (next : HoldEntry)
    (hnext : isHeld next = false) (hh : ∀ p' t', T'.hold p' t' = if p' = p ∧ t' = t then next else T.hold p' t')
    (he : ∀ j, T'.entry j = { T.entry j with
      pins := if j = y.index ∨ j = y.resolved then (T.entry j).pins - 1 else (T.entry j).pins
      writer := if j = y.resolved ∧ y.access = .write then none else (T.entry j).writer })
    (hlist : T'.freeList = T.freeList) (hdomains : T'.domains = T.domains) (hqueue : T'.expiryQueue = T.expiryQueue) :
    Recs T0 (fun j => X j ∨ j = y.index ∨ j = y.resolved) T' :=
  ⟨h.core.ended p t y hy next hnext hh he, h.rest.ended h.core p t y hy next hnext hh he hlist hdomains hqueue⟩

/-- A HELD entry becomes EMPTY and its records are tested (R55, R57, R72). -/
theorem unpin (h : Recs T0 X T) (p : PortId) (t : Token) (y : HeldHold) (hy : T.hold p t = .held y) :
    Recs T0 X (Tables.testRecords none (T.unpin p t y .empty) y) := by
  refine testRecords y (h.ended p t y hy .empty rfl (fun p' t' => unpin_hold T p p' t t' y _)
    (T.unpin_entry p t y _) ?_ ?_ ?_) none fun j e => (nomatch e)
  all_goals rw [unpin_rest]

theorem breakHold (h : Recs T0 X T) (reason : BreakReason) (damaged : Option Index) (x : PortId × Token)
    (hskip : ∀ j, damaged = some j → X j) : Recs T0 X (breakHold reason damaged T x) := by
  by_cases hx : ∃ y, T.hold x.1 x.2 = .held y
  · obtain ⟨y, hy⟩ := hx
    rw [breakHold_held reason damaged T x y hy]
    have hbroken : Recs T0 (fun j => X j ∨ j = y.index ∨ j = y.resolved) (T.breakUnpin reason x.1 x.2 y) := by
      refine h.ended x.1 x.2 y hy (.broken reason (sendsBroken (T.port x.1).state)) rfl
        (fun p' t' => T.breakUnpin_hold reason x.1 p' x.2 t' y) (T.breakUnpin_entry reason x.1 x.2 y) ?_ ?_ ?_
      all_goals rw [breakUnpin_rest]
    refine testRecords y ?_ damaged hskip
    unfold Tables.raiseBreak
    split_ifs
    · exact hbroken.raiseRecord y.index _
    · exact hbroken
  · rw [breakHold_not_held T reason damaged x fun y hy => hx ⟨y, hy⟩]
    exact h

theorem breakAll (h : Recs T0 X T) (reason : BreakReason) (damaged : Option Index) (xs : List (PortId × Token))
    (hskip : ∀ j, damaged = some j → X j) : Recs T0 X (T.breakAll reason damaged xs) := by
  unfold Tables.breakAll
  induction xs generalizing T with
  | nil => exact h
  | cons x xs ih => exact ih (h.breakHold reason damaged x hskip)

/-- The breaks of a claim that is about no damaged record. -/
theorem breakAll_none (h : Recs T0 X T) (reason : BreakReason) (xs : List (PortId × Token)) :
    Recs T0 X (T.breakAll reason none xs) := h.breakAll reason none xs fun _ e => (nomatch e)

theorem changed (h : Recs T0 X T) (i : Index) (x : RecState) (hi : (T.entry i).state ≠ .free) (hx : x ≠ .free)
    (hpending : x ≠ .pending) (hpins : x = .damaged → (T.entry i).pins = 0)
    (hdead : (T.entry i).deadline ≠ none → x = .live ∨ x = .suspended)
    (hdrain : x = .draining → X i ∨ 0 < (T.entry i).pins ∨ (T.entry i).aliases ≠ []) :
    Recs T0 X (T.modEntry i fun e => { e with state := x }) := by
  refine ⟨h.core.changed i x hi hx hpending hpins, h.rest.changed i x hi hx hdead ?_ hdrain⟩
  cases x with
  | free => exact absurd rfl hx
  | pending => exact absurd rfl hpending
  | live => exact Or.inl rfl
  | suspended => exact Or.inr (Or.inl rfl)
  | draining => exact Or.inr (Or.inr (Or.inl rfl))
  | damaged => exact Or.inr (Or.inr (Or.inr ((h.core.pins_eq i).symm.trans (hpins rfl))))

/-- The frames of a claim are put in order. -/
theorem of_rst (h : Recs T0 X T) (hrst : T'.rst = T.rst) (hlist : T'.freeList = T.freeList)
    (hcount : ∀ d, (T'.domain d).count = (T.domain d).count) (hqueue : T'.expiryQueue = T.expiryQueue)
    (hholds : ∀ p t y, T'.hold p t = .held y ↔ T.hold p t = .held y) : Recs T0 X T' := by
  have hent : ∀ j, T'.entry j = T.entry j := fun j => by
    unfold entry
    rw [hrst]
  have hcountRests : ∀ j, restCount T' j = restCount T j := fun j => by
    unfold restCount
    refine congrArg List.length (List.filter_congr fun x _ => ?_)
    unfold restsAt
    cases hx : T.hold x.1 x.2 with
    | held y => rw [(hholds x.1 x.2 y).mpr hx]
    | _ =>
      cases hx' : T'.hold x.1 x.2 with
      | held y =>
        rw [(hholds x.1 x.2 y).mp hx'] at hx
        cases hx
      | _ => rfl
  refine ⟨h.core.of_entries (fun j => by rw [hent]; exact h.core.entries j) (fun j => by rw [hent])
    (fun j => by rw [hent]) fun j => by rw [hent, hcountRests]; exact ⟨h.core.pins_eq j, h.core.pins_le j⟩, ?_⟩
  refine h.rest.of_entries (fun j => by rw [hent]) (fun j => by rw [hent]) (fun j => by rw [hent])
    (fun j _ => hent j) hlist hcount hqueue (fun j p hj => ?_)
    (Rest.heldLaw_of h.rest.held (fun p t y => (hholds p t y).mp) (fun j => by rw [hent]) fun j => by rw [hent])
    fun j hj => ?_
  · rw [hent] at hj
    obtain ⟨t, y, hy, hw⟩ := h.rest.writers j p hj
    exact ⟨t, y, (hholds p t y).mpr hy, hw⟩
  · rw [hent] at hj ⊢
    exact h.rest.draining j hj

theorem orderFrames (h : Recs T0 X T) (T1 : Tables) : Recs T0 X (orderFrames T1 T) :=
  h.of_rst rfl rfl (fun _ => rfl) rfl fun _ _ _ => Iff.rfl

/-! ## Retirement (R12, R89, R90) -/

theorem finishRetire (h : Recs T0 X T) (i : Index) (hi : (T.entry i).state ≠ .free) : Recs T0 X (T.finishRetire i) := by
  have hq := h.leaveQueue i
  have hself : (T.leaveQueue i).entry i = { T.entry i with deadline := none } := leaveQueue_self i
  have hs : ((T.leaveQueue i).entry i).state ≠ .free := by
    rw [hself]
    exact hi
  have hdead : ((T.leaveQueue i).entry i).deadline = none := by rw [hself]
  unfold Tables.finishRetire
  dsimp only
  split_ifs with hc
  · exact (hq.exempt fun j hj => Or.inl hj).becomeFree none hs hc.1 hc.2 hdead fun j e => (nomatch e)
  · refine hq.changed i .draining hs (by decide) (by decide) (fun e => (nomatch e)) (fun hd => absurd hdead hd)
      fun _ => Or.inr ?_
    by_contra hno
    obtain ⟨hp, ha⟩ := not_or.mp hno
    exact hc ⟨Nat.eq_zero_of_not_pos hp, not_not.mp ha⟩

theorem retireSelf (h : Recs T0 X T) (brk : Bool) (i : Index) (hi : retirable (T.entry i).state = true) :
    Recs T0 X (T.retireSelf brk i) := by
  have hs : (T.entry i).state ≠ .free := fun hf => by rw [hf] at hi; cases hi
  rw [retireSelf_eq]
  split
  · refine (h.breakAll_none _ _).finishRetire i ?_
    rw [(sameLife_breakAll hi _ _ _).1]
    exact hs
  · exact h.finishRetire i hs

theorem cascadeVisits (h : Recs T0 X T) (brk : Bool) (l : List Index) : Recs T0 X (l.foldl (cascadeVisit brk) T) := by
  induction l generalizing T with
  | nil => exact h
  | cons a l ih =>
    refine ih ?_
    unfold cascadeVisit
    split_ifs with ha
    · exact h.retireSelf brk a ha
    · exact h

/-- The cascade leaves the record itself as it can be retired. -/
theorem retire (h : Recs T0 X T) (casc brk : Bool) (i : Index) (hi : retirable (T.entry i).state = true) :
    Recs T0 X (T.retire casc brk i) := by
  have hcascade : Recs T0 X (if casc then T.cascade brk i else T) ∧
      retirable ((if casc then T.cascade brk i else T).entry i).state = true := by
    cases casc with
    | false => exact ⟨h, hi⟩
    | true =>
      refine ⟨h.cascadeVisits brk _, ?_⟩
      have hnot : i ∉ (T.entry i).aliases := fun hm => (h.core.of_mem hm).2.2.2 rfl
      exact (Steady.retirable (Steady.cascadeVisits (A := fun a => a ∈ (T.entry i).aliases) brk _ fun a ha => ha)
        hnot).trans hi
  have hself := hcascade.1.retireSelf brk i hcascade.2
  unfold Tables.retire
  dsimp only
  cases brk with
  | false => exact hself
  | true => exact hself.orderFrames T

theorem expire (h : Recs T0 X T) (i : Index) (hi : retirable (T.entry i).state = true) : Recs T0 X (T.expire i) := by
  refine (h.raiseRecord i .expired).retire true false i ?_
  rw [(Core.raiseRecord_fields T i .expired i).1]
  exact hi

/-! ## Damage (R14, R67) -/

theorem damageEnd (h : Recs T0 (fun j => X j ∨ j = i) T) (hs : (T.entry i).state = .live ∨ (T.entry i).state = .suspended)
    (hpins : (T.entry i).pins = 0) : Recs T0 X (damageEnd T i) := by
  have hraised := (h.leaveQueue i).raiseRecord i .damaged
  obtain ⟨r1, r2, -, -, r5⟩ := Core.raiseRecord_fields (T.leaveQueue i) i .damaged i
  have hself : (T.leaveQueue i).entry i = { T.entry i with deadline := none } := leaveQueue_self i
  rw [hself] at r1 r2 r5
  have hne : (((T.leaveQueue i).raiseRecord i .damaged).entry i).state ≠ .free := by
    rw [r1]
    rcases hs with hs | hs <;> simp [hs]
  have hchanged := hraised.changed i .damaged hne (by decide) (by decide) (fun _ => r2.trans hpins)
    (fun hd => absurd r5 hd) fun e => (nomatch e)
  refine ⟨hchanged.core, hchanged.rest.not_draining ?_⟩
  rw [entry_modEntry, if_pos ⟨rfl, Core.ne_zero hne⟩]
  exact fun e => (nomatch e)

theorem damageClaim (h : Recs T0 X T) (i : Index) (g : Generation) : Recs T0 X (T.damageClaim i g) := by
  have hbroken : Recs T0 (fun j => X j ∨ j = i) (damageBroken T i) :=
    (h.exempt fun j hj => Or.inl hj).breakAll _ _ _ fun j e => Or.inr (Option.some.inj e).symm
  by_cases hg : (T.entry i).generation = g
  · by_cases hc : Claimed (T.entry i).state
    · by_cases hd : (T.entry i).state = .draining
      · rw [damageClaim_of_draining hg hd]
        exact (hbroken.raiseRecord i .damaged).testDraining none fun j e => (nomatch e)
      · have hs : (T.entry i).state = .live ∨ (T.entry i).state = .suspended := hc.imp id fun h => h.resolve_right hd
        rw [damageClaim_of_live hg hs]
        obtain ⟨n, w, l, hspared⟩ := damageBroken_spared T i
        refine hbroken.damageEnd ?_ (pins_breakAll h.core.pins .damaged (some i) i)
        rw [hspared]
        exact hs
    · rw [damageClaim_of_not_claimed hc]
      exact h
  · rw [damageClaim_of_none (Or.inl hg)]
    exact h

theorem lossClaims (h : Recs T0 X T) (l : List Index) : Recs T0 X (l.foldl lossClaim T) := by
  induction l generalizing T with
  | nil => exact h
  | cons i l ih =>
    refine ih ?_
    rw [lossClaim_eq]
    exact h.damageClaim i _

theorem damageOfRead (h : Recs T0 X T) (r : ReadRecord) : Recs T0 X (damageOfRead T r) := by
  unfold State.damageOfRead
  split_ifs
  · exact h.damageClaim _ _
  · exact h

theorem readDamage (h : Recs T0 X T) (x : CheckSlot) : Recs T0 X (readDamage T x) := by
  unfold State.readDamage
  split
  · exact h.damageOfRead _
  · exact ((h.damageOfRead _).damageOfRead _).orderFrames T

end Recs

end Sys2Proof.Machine.State
end

section
/-! SUPPORT. The laws of the records where a hold entry is reserved, filled, returned, released or emptied (R27, R40,
R54, R57, R72). -/

namespace Sys2Proof.Machine.State

open Tables

theorem restsAt_of_not_held {T : Tables} {p : PortId} {t : Token} (h : isHeld (T.hold p t) = false) (i : Index) :
    restsAt T i (p, t) = false := by
  unfold restsAt
  cases hx : T.hold p t with
  | held y =>
    rw [hx] at h
    cases h
  | _ => rfl

namespace Recs

variable {T0 T T' : Tables} {X : Index → Prop}

/-- A hold entry that is not HELD changes and is not HELD after it. -/
theorem setHold (h : Recs T0 X T) (p : PortId) (t : Token) (next : HoldEntry) (ht : isHeld (T.hold p t) = false)
    (hnext : isHeld next = false) : Recs T0 X (T.setHold p t next) := by
  refine h.of_rst rfl rfl (fun _ => rfl) rfl fun p' t' y => ?_
  rw [hold_setHold]
  split_ifs with he
  · obtain ⟨rfl, rfl⟩ := he
    refine iff_of_false (fun e => ?_) fun e => ?_
    · rw [e] at hnext
      cases hnext
    · rw [e] at ht
      cases ht
  · rfl

theorem placeFrame (h : Recs T0 X T) (p : PortId) (f : OutFrame) : Recs T0 X (T.placeFrame p f) :=
  h.of_rst rfl rfl (fun _ => rfl) rfl fun _ _ _ => Iff.rfl

theorem setPort (h : Recs T0 X T) (p : PortId) (e : PortEntry) : Recs T0 X (T.setPort p e) :=
  h.of_rst rfl rfl (fun _ => rfl) rfl fun _ _ _ => Iff.rfl

theorem setPortNotice (h : Recs T0 X T) (p : PortId) (n : PortNotice) : Recs T0 X (T.setPortNotice p n) :=
  h.of_rst rfl rfl (fun _ => rfl) rfl fun _ _ _ => Iff.rfl

theorem raiseLoss (h : Recs T0 X T) (b : BankId) : Recs T0 X (T.raiseLoss b) :=
  h.of_rst rfl rfl (fun _ => rfl) rfl fun _ _ _ => Iff.rfl

theorem raiseClosed (h : Recs T0 X T) (d : DomainId) : Recs T0 X (T.raiseClosed d) :=
  h.of_rst rfl rfl (fun _ => rfl) rfl fun _ _ _ => Iff.rfl

/-- A domain's entry changes, its count kept. -/
theorem setDomain (h : Recs T0 X T) (d : DomainId) (e : DomainEntry) (he : e.count = (T.domain d).count) :
    Recs T0 X (T.setDomain d e) := by
  refine h.of_rst rfl rfl (fun d' => ?_) rfl fun _ _ _ => Iff.rfl
  rw [domain_setDomain]
  split_ifs with hd
  · rw [hd, he]
  · rfl

theorem fence (h : Recs T0 X T) (p : PortId) (c : FenceCause) : Recs T0 X (State.fence T p c) := by
  unfold State.fence
  split
  · exact (h.setPort p _).setPortNotice p _
  · exact h.setPortNotice p _
  all_goals exact h

/-! ## Entries emptied (R57, R72) -/

/-- A BROKEN entry becomes EMPTY, its frame withdrawn. -/
theorem emptied (h : Recs T0 X T) (p : PortId) (t : Token) (ht : isHeld (T.hold p t) = false) :
    Recs T0 X ((T.withdraw p t).setHold p t .empty) :=
  setHold (T := T.withdraw p t) (h.of_rst rfl rfl (fun _ => rfl) rfl fun _ _ _ => Iff.rfl) p t .empty ht rfl

theorem releaseEntry (h : Recs T0 X T) (p : PortId) (t : Token) : Recs T0 X (State.releaseEntry T p t) := by
  unfold State.releaseEntry
  split
  · next y hy => exact h.unpin p t y hy
  · next hb => exact h.emptied p t (by rw [hb]; rfl)
  all_goals exact h

theorem resetEntry (h : Recs T0 X T) (p : PortId) (t : Token) : Recs T0 X (Tables.resetEntry p T t) := by
  unfold Tables.resetEntry
  split
  · next y hy => exact h.unpin p t y hy
  · next hb => exact h.emptied p t (by rw [hb]; rfl)
  · next hr => exact h.setHold p t .empty (by rw [hr]; rfl) rfl
  · exact h

theorem completeReset (h : Recs T0 X T) (p : PortId) : Recs T0 X (T.completeReset p) := by
  have hfold : ∀ (l : List Token) (T : Tables), Recs T0 X T → Recs T0 X (l.foldl (Tables.resetEntry p) T) := by
    intro l
    induction l with
    | nil => exact fun T h => h
    | cons t l ih => exact fun T h => ih _ (h.resetEntry p t)
  exact ((hfold allTokens T h).setPort p _).setPortNotice p _

/-- The frame of a BROKEN entry is sent (R59). -/
theorem sent (h : Recs T0 X T) (p : PortId) (rest : List OutFrame) (f : OutFrame) :
    Recs T0 X (frameSent (T.setQueue p rest) p f) := by
  have hq : Recs T0 X (T.setQueue p rest) := h.of_rst rfl rfl (fun _ => rfl) rfl fun _ _ _ => Iff.rfl
  unfold frameSent
  split
  · exact hq
  · split
    · next hb => exact hq.setHold p _ _ (by rw [hb]; rfl) rfl
    all_goals exact hq

/-! ## Entries reserved, returned and filled (R27, R40, R54) -/

theorem reserve (h : Recs T0 X T) (p : PortId) (tok : Option Token)
    (htok : ∀ t, tok = some t → isHeld (T.hold p t) = false) : Recs T0 X (State.reserve T p tok) := by
  cases tok with
  | none => exact h
  | some t => exact h.setHold p t .reserved (htok t rfl) rfl

theorem returnEntry (h : Recs T0 X T) (p : PortId) (x : CheckSlot)
    (htok : ∀ t, x.token = some t → isHeld (T.hold p t) = false) : Recs T0 X (State.returnEntry T p x) := by
  unfold State.returnEntry
  split
  · next t ht => exact h.setHold p t .empty (htok t ht) rfl
  · exact h

/-- What the fill of a hold entry leans on: the records concerned are LIVE, at the generation named, and with room for
a pin. -/
structure Fillable (T : Tables) (x : CheckSlot) : Prop where
  named : (T.entry x.named.index).state = .live
  data : (T.entry (dataIndexOf x)).state = .live
  generation : (T.entry x.named.index).generation = x.request.generation
  namedPins : (T.entry x.named.index).pins < 15
  dataPins : (T.entry (dataIndexOf x)).pins < 15

theorem fillHold (h : Recs T0 X T) (p : PortId) (t : Token) (x : CheckSlot) (ht : isHeld (T.hold p t) = false)
    (hx : Fillable T x) : Recs T0 X (State.fillHold T p t x) := by
  obtain ⟨hnamed, hdata, hgen, hnamedPins, hdataPins⟩ := hx
  have hlive : ∀ j, j = x.named.index ∨ j = dataIndexOf x → (T.entry j).state = .live ∧ (T.entry j).pins < 15 := by
    rintro j (rfl | rfl)
    · exact ⟨hnamed, hnamedPins⟩
    · exact ⟨hdata, hdataPins⟩
  have hent : ∀ j, (State.fillHold T p t x).entry j = { T.entry j with
      pins := if j = x.named.index ∨ j = dataIndexOf x then (T.entry j).pins + 1 else (T.entry j).pins
      writer := if j = dataIndexOf x ∧ x.request.access = .write ∧ (dataBodyOf x).map Body.sharing = some .sole then
          some p else (T.entry j).writer } := fun j => by
    by_cases h0 : j = 0
    · subst h0
      rw [if_neg fun e => ?_, if_neg fun e => ?_]
      · rfl
      · exact nomatch (hlive 0 (Or.inr e.1)).1
      · exact nomatch (hlive 0 e).1
    · exact fillHold_entry T p t x h0
  have hhold := fun p' t' => fillHold_hold T p p' t t' x
  have hrest := fillHold_rest T p t x
  generalize State.fillHold T p t x = T' at hent hhold hrest
  have hold_of : ∀ p' t' y, T.hold p' t' = .held y → T'.hold p' t' = .held y := fun p' t' y hy => by
    rw [hhold, if_neg]
    · exact hy
    · rintro ⟨rfl, rfl⟩
      rw [hy] at ht
      cases ht
  have hcount : ∀ j, restCount T' j =
      restCount T j + (decide (j = x.named.index ∨ j = dataIndexOf x)).toNat := fun j => by
    have hupd := restCount_update (T := T) (T' := T') p t (fun p' t' hne => by
      rw [hhold, if_neg fun e => hne (Prod.ext e.1 e.2)]) j
    have hbefore : restsAt T j (p, t) = false := restsAt_of_not_held ht j
    have hafter : restsAt T' j (p, t) = decide (j = x.named.index ∨ j = dataIndexOf x) := by
      unfold restsAt
      dsimp only
      rw [hhold, if_pos ⟨rfl, rfl⟩]
      exact Bool.eq_iff_iff.mpr ((restsOn_iff j _).trans (decide_eq_true_iff).symm)
    rw [hbefore, hafter] at hupd
    exact hupd
  have hfree : ∀ j, (T.entry j).state = .free → T'.entry j = T.entry j := fun j hj => by
    rw [hent, if_neg fun e => ?_, if_neg fun e => ?_]
    · have := (hlive j (Or.inr e.1)).1
      rw [hj] at this
      cases this
    · have := (hlive j e).1
      rw [hj] at this
      cases this
  refine ⟨h.core.of_entries (fun j => ?_) (fun j => by rw [hent]) (fun j => by rw [hent]) fun j => ?_,
    h.rest.of_entries (fun j => by rw [hent]) (fun j => by rw [hent]) (fun j => by rw [hent]) hfree (by rw [hrest])
      (fun d => by rw [hrest]; rfl) (by rw [hrest]) (fun j p' hj => ?_) (fun p' t' y hy => ?_) fun j hj => ?_⟩
  · by_cases hj : (T.entry j).state = .free
    · rw [hfree j hj]
      exact h.core.entries j
    · rw [hent]
      refine (h.core.entries j).pinned _ _ (fun hs => ?_) fun hs => absurd hs hj
      have hno : ¬ (j = x.named.index ∨ j = dataIndexOf x) := fun e => by
        rw [(hlive j e).1] at hs
        rcases hs with hs | hs | hs <;> cases hs
      rw [if_neg hno]
      exact (h.core.entries j).2.2.2.1 (hs.resolve_left hj)
  · rw [hcount, hent, ← h.core.pins_eq]
    dsimp only
    by_cases hj : j = x.named.index ∨ j = dataIndexOf x
    · have := (hlive j hj).2
      rw [if_pos hj, decide_eq_true hj]
      exact ⟨rfl, this⟩
    · rw [if_neg hj, decide_eq_false hj]
      exact ⟨rfl, h.core.pins_le j⟩
  · rw [hent] at hj
    dsimp only at hj
    split_ifs at hj with hw
    · cases hj
      exact ⟨t, heldOf T p x, by rw [hhold, if_pos ⟨rfl, rfl⟩], hw.2.1, hw.1.symm⟩
    · obtain ⟨t', y, hy, hw'⟩ := h.rest.writers j p' hj
      exact ⟨t', y, hold_of p' t' y hy, hw'⟩
  · rw [hhold] at hy
    split_ifs at hy
    · cases hy
      refine ⟨?_, fun i hi => ?_⟩
      · rw [hent]
        exact hgen
      · rw [hent]
        exact Or.inl (hlive i hi).1
    · obtain ⟨hg, hs⟩ := h.rest.held p' t' y hy
      refine ⟨?_, fun i hi => ?_⟩
      · rw [hent]
        exact hg
      · rw [hent]
        exact hs i hi
  · rw [hent] at hj ⊢
    refine (h.rest.draining j hj).imp_right (Or.imp_left fun hp => ?_)
    dsimp only
    split_ifs
    · exact Nat.succ_pos _
    · exact hp

end Recs

/-! ## No entry HELD, while the part is CLEARING (R69) -/

/-- No entry is HELD. -/
def Unheld (T : Tables) : Prop := ∀ p t, isHeld (T.hold p t) = false

namespace Unheld

variable {T T' : Tables}

theorem of_hold (h : Unheld T) (hh : ∀ p t, T'.hold p t = T.hold p t) : Unheld T' := fun p t => by
  rw [hh]
  exact h p t

theorem breakClosed : BreakClosed Unheld where
  toRecordClosed := recordClosed_of_sameHolds fun _ _ hs h => h.of_hold hs.hold
  breakUnpin reason p t y h hy := by
    have := h p t
    rw [hy] at this
    cases this
  orderFrames _ h := h

theorem setHold (h : Unheld T) (p : PortId) (t : Token) (next : HoldEntry) (hnext : isHeld next = false) :
    Unheld (T.setHold p t next) := fun p' t' => by
  rw [hold_setHold]
  split_ifs
  · exact hnext
  · exact h p' t'

theorem setPort (h : Unheld T) (p : PortId) (e : PortEntry) : Unheld (T.setPort p e) := h

theorem setPortNotice (h : Unheld T) (p : PortId) (n : PortNotice) : Unheld (T.setPortNotice p n) := h

theorem releaseEntry (h : Unheld T) (p : PortId) (t : Token) : Unheld (State.releaseEntry T p t) := by
  unfold State.releaseEntry
  split
  · next y hy =>
    have := h p t
    rw [hy] at this
    cases this
  · exact setHold (T := T.withdraw p t) h p t .empty rfl
  all_goals exact h

theorem resetEntry (h : Unheld T) (p : PortId) (t : Token) : Unheld (Tables.resetEntry p T t) := by
  unfold Tables.resetEntry
  split
  · next y hy =>
    have := h p t
    rw [hy] at this
    cases this
  · exact setHold (T := T.withdraw p t) h p t .empty rfl
  · exact h.setHold p t .empty rfl
  · exact h

theorem completeReset (h : Unheld T) (p : PortId) : Unheld (T.completeReset p) := by
  have hfold : ∀ (l : List Token) (T : Tables), Unheld T → Unheld (l.foldl (Tables.resetEntry p) T) := by
    intro l
    induction l with
    | nil => exact fun T h => h
    | cons t l ih => exact fun T h => ih _ (h.resetEntry p t)
  have hall := hfold allTokens T h
  have hport : Unheld ((allTokens.foldl (Tables.resetEntry p) T).setPort p
      { (allTokens.foldl (Tables.resetEntry p) T).port p with state := .active }) := hall.setPort p _
  exact hport.setPortNotice p _

theorem reserve (h : Unheld T) (p : PortId) (tok : Option Token) : Unheld (State.reserve T p tok) := by
  cases tok with
  | none => exact h
  | some t => exact h.setHold p t .reserved rfl

theorem returnEntry (h : Unheld T) (p : PortId) (x : CheckSlot) : Unheld (State.returnEntry T p x) := by
  unfold State.returnEntry
  split
  · exact h.setHold p _ .empty rfl
  · exact h

theorem sent (h : Unheld T) (p : PortId) (rest : List OutFrame) (f : OutFrame) :
    Unheld (frameSent (T.setQueue p rest) p f) := by
  have hq : Unheld (T.setQueue p rest) := h
  unfold frameSent
  split
  · exact hq
  · split
    · exact hq.setHold p _ _ rfl
    all_goals exact hq

end Unheld

end Sys2Proof.Machine.State
end

section
/-! SUPPORT. The laws of the records where an establish takes a record, an AMEND is written, a notice is fetched, and a
domain is swept (R8, R65, R83, R114, R127). -/

namespace Sys2Proof.Machine.State

open Tables

namespace Recs

variable {T0 T T' : Tables} {X : Index → Prop} {i : Index}

/-- The laws hold of the tables as they are, whatever was FREE before. -/
theorem rebase (h : Recs T0 X T) : Recs T X T where
  core := h.core
  rest :=
    { nodup := h.rest.nodup
      listed := h.rest.listed
      counts := h.rest.counts
      expiry := h.rest.expiry
      writers := h.rest.writers
      held := h.rest.held
      draining := h.rest.draining
      kept := fun _ _ => rfl }

/-! ## AMEND (R65, R83, R86) -/

/-- The writer of a record that is not FREE is absent, or the port of a WRITE hold that reaches it. -/
theorem setWriter (h : Recs T0 X T) (w : Option PortId) (hi : (T.entry i).state ≠ .free)
    (hw : ∀ p, w = some p → ∃ t y, T.hold p t = .held y ∧ y.access = .write ∧ y.resolved = i) :
    Recs T0 X (T.setWriter i w) := by
  have h0 := Core.ne_zero hi
  have hent : ∀ j, (T.setWriter i w).entry j = { T.entry j with
      writer := if j = i then w else (T.entry j).writer } := fun j => by
    unfold Tables.setWriter
    rw [entry_modEntry]
    by_cases hj : j = i
    · rw [if_pos ⟨hj, h0⟩, if_pos hj]
    · rw [if_neg fun e => hj e.1, if_neg hj]
  have hs := (sameHolds_closed T).setWriter i w (SameHolds.refl T)
  have hrest : T.setWriter i w = { T with rst := (T.setWriter i w).rst } := modEntry_rest T i _
  generalize T.setWriter i w = T' at hent hs hrest
  have hfree : ∀ j, (T.entry j).state = .free → T'.entry j = T.entry j := fun j hj => by
    rw [hent, if_neg]
    rintro rfl
    exact hi hj
  refine ⟨h.core.of_same (fun j => ?_) (fun j => by rw [hent]) (fun j => by rw [hent]) (fun j => by rw [hent]) hs.hold,
    h.rest.of_entries (fun j => by rw [hent]) (fun j => by rw [hent]) (fun j => by rw [hent]) hfree (by rw [hrest])
      (fun d => by rw [hrest]; rfl) (by rw [hrest]) (fun j p hj => ?_)
      (Rest.heldLaw_of h.rest.held (fun p t y hy => by rw [← hs.hold]; exact hy) (fun j => by rw [hent])
        fun j => by rw [hent]) fun j hj => ?_⟩
  · by_cases hj : (T.entry j).state = .free
    · rw [hfree j hj]
      exact h.core.entries j
    · rw [hent]
      exact (h.core.entries j).pinned (T.entry j).pins _
        (fun hs => (h.core.entries j).2.2.2.1 (hs.resolve_left hj)) fun hs => absurd hs hj
  · rw [hent] at hj
    dsimp only at hj
    split_ifs at hj with hji
    · obtain ⟨t, y, hy, ha, hr⟩ := hw p hj
      exact ⟨t, y, by rw [hs.hold]; exact hy, ha, hr.trans hji.symm⟩
    · obtain ⟨t, y, hy⟩ := h.rest.writers j p hj
      exact ⟨t, y, by rw [hs.hold]; exact hy⟩
  · rw [hent] at hj ⊢
    exact h.rest.draining j hj

theorem amendWriter (h : Recs T0 X T) (b : Body) (hi : (T.entry i).state ≠ .free) :
    Recs T0 X (State.amendWriter T i b) := by
  cases b with
  | aliasBody a => exact h
  | dataBody d =>
    cases hd : d.sharing with
    | shared =>
      rw [amendWriter_shared hd]
      exact h.setWriter none hi fun p e => (nomatch e)
    | sole =>
      rw [amendWriter_sole hd]
      refine h.setWriter _ hi fun p hp => ?_
      obtain ⟨x, hx, rfl⟩ := Option.map_eq_some_iff.mp hp
      obtain ⟨⟨y, hy, hr, ha, -⟩, -⟩ := (keptWriter_eq_some_iff T i (.dataBody d) x).mp hx
      exact ⟨x.2, y, hy, ha, hr⟩

theorem applyDeadline (h : Recs T0 X T) (c : DeadlineChange)
    (hi : (T.entry i).state = .live ∨ (T.entry i).state = .suspended) : Recs T0 X (T.applyDeadline i c) := by
  cases c with
  | keep => exact h
  | set d => exact h.enterQueue i d hi
  | clear => exact h.leaveQueue i

theorem amendTables (h : Recs T0 X T) (c : AmendChanges) (b : Body)
    (hi : (T.entry i).state = .live ∨ (T.entry i).state = .suspended) : Recs T0 X (State.amendTables T i c b) := by
  have hr : retirable (T.entry i).state = true := by rcases hi with hi | hi <;> rw [hi] <;> rfl
  have hstate : ((amendBroken T i b).entry i).state = (T.entry i).state := (sameLife_breakAll hr _ _ _).1
  have hfree : ((amendBroken T i b).entry i).state ≠ .free := by
    rw [hstate]
    rcases hi with hi | hi <;> rw [hi] <;> decide
  have hbroken : Recs T0 X (amendBroken T i b) := h.breakAll_none _ _
  rw [amendTables_eq]
  obtain ⟨w, hw, -⟩ := amendWriter_entry (T := amendBroken T i b) (b := b) (Core.ne_zero hfree)
  have hwritten : ((State.amendWriter (amendBroken T i b) i b).entry i).state = (T.entry i).state := by
    rw [hw, if_pos rfl]
    exact hstate
  refine (hbroken.amendWriter b hfree).applyDeadline c.deadline ?_
  rw [hwritten]
  exact hi

/-! ## A record is taken from the free list (R8) -/

/-- The target of a record taken as kind `k`: none, or a DATA record that is LIVE or SUSPENDED and has room in its
alias list. -/
def Takable (T : Tables) (k : RecKind) (tg : Option Index) : Prop :=
  (k = .dataKind ∧ tg = none) ∨ (k = .aliasKind ∧ ∃ t, tg = some t ∧ (T.entry t).kind = some .dataKind ∧
    ((T.entry t).state = .live ∨ (T.entry t).state = .suspended) ∧ (T.entry t).aliases.length < 15)

theorem takeHead_entry {rest : List Index} {d : DomainId} {k : RecKind} {tg : Option Index} (h0 : i ≠ 0)
    (htg : ∀ t, tg = some t → t ≠ 0 ∧ i ≠ t) (j : Index) : (T.takeHead i rest d k tg).entry j =
      if j = i then { T.entry j with
        state := .pending, domain := some d, kind := some k, target := tg, pins := 0, writer := none,
        deadline := none }
      else { T.entry j with
        aliases := if tg = some j then (T.entry j).aliases ++ [i] else (T.entry j).aliases } := by
  cases tg with
  | none =>
    rw [takeHead_entry_data k h0]
    rfl
  | some t =>
    obtain ⟨ht0, hne⟩ := htg t rfl
    rw [takeHead_entry_alias k h0 ht0 hne]
    by_cases hj : j = t
    · rw [if_pos hj, if_pos (congrArg some hj.symm)]
    · rw [if_neg hj, if_neg fun e => hj (Option.some.inj e).symm]

/-- What the take of FREE record `i` leaves. -/
structure HeadTaken (T : Tables) (i : Index) (rest : List Index) (d : DomainId) (k : RecKind) (tg : Option Index)
    (T' : Tables) : Prop where
  self : T'.entry i = { T.entry i with
    state := .pending, domain := some d, kind := some k, target := tg, pins := 0, writer := none, deadline := none }
  other : ∀ j, j ≠ i → T'.entry j = { T.entry j with
    aliases := if tg = some j then (T.entry j).aliases ++ [i] else (T.entry j).aliases }
  hold : ∀ p t, T'.hold p t = T.hold p t
  freeList : T'.freeList = rest
  queue : T'.expiryQueue = T.expiryQueue
  domain : ∀ d', T'.domain d' =
    if d' = d then { T.domain d with count := (T.domain d).count + 1 } else T.domain d'

/-- The target of the record taken is another one, which is not FREE. -/
theorem Takable.target {k : RecKind} {tg : Option Index} (hk : Takable T k tg) (hi : (T.entry i).state = .free)
    {t : Index} (ht : tg = some t) : (T.entry t).kind = some .dataKind ∧
      ((T.entry t).state = .live ∨ (T.entry t).state = .suspended) ∧ (T.entry t).aliases.length < 15 ∧
      (T.entry t).state ≠ .free ∧ i ≠ t := by
  subst ht
  rcases hk with ⟨-, e⟩ | ⟨-, t', e, hkind, hs, hl⟩
  · cases e
  · cases e
    have hne : (T.entry t).state ≠ .free := by rcases hs with hs | hs <;> rw [hs] <;> decide
    exact ⟨hkind, hs, hl, hne, fun e => hne (e ▸ hi)⟩

namespace HeadTaken

variable {rest : List Index} {d : DomainId} {k : RecKind} {tg : Option Index}

theorem of_takeHead (h0 : i ≠ 0) (hi : (T.entry i).state = .free) (hk : Takable T k tg) :
    HeadTaken T i rest d k tg (T.takeHead i rest d k tg) := by
  have hent := takeHead_entry (T := T) (rest := rest) (d := d) (k := k) (tg := tg) h0 fun t ht => by
    obtain ⟨-, -, -, hs, hne⟩ := hk.target hi ht
    exact ⟨Core.ne_zero hs, hne⟩
  have hrest := takeHead_rest T i rest d k tg
  have hdomain := takeHead_domain (T := T) (i := i) (rest := rest) (d := d) k tg
  generalize T.takeHead i rest d k tg = T' at hent hrest hdomain
  exact ⟨by rw [hent, if_pos rfl], fun j hj => by rw [hent, if_neg hj], fun p t => by rw [hrest]; rfl, by rw [hrest],
    by rw [hrest], hdomain⟩

/-- The status entry of the record taken fits, and that of its target. -/
theorem entries (ht : HeadTaken T i rest d k tg T') (hc : Core T) (hi : (T.entry i).state = .free)
    (hreasons : (T.entry i).reasons = ⟨false, false, false, false⟩) (hk : Takable T k tg) : EntryLaw T' := by
  obtain ⟨-, -, -, haliases, -⟩ := hc.free hi
  intro j
  by_cases hj : j = i
  · subst hj
    obtain ⟨-, -, -, -, hnotice⟩ := hc.entries j
    rw [if_pos hreasons] at hnotice
    rw [ht.self]
    refine ⟨fun e => (nomatch e), fun _ => ⟨rfl, ?_⟩, fun _ => haliases, fun _ => rfl, ?_⟩
    · rcases hk with ⟨rfl, rfl⟩ | ⟨rfl, t, rfl, -⟩
      · exact Or.inl ⟨rfl, rfl⟩
      · exact Or.inr ⟨rfl, rfl, haliases⟩
    · exact hnotice.trans (if_pos hreasons).symm
  · rw [ht.other j hj]
    by_cases htj : tg = some j
    · rw [if_pos htj]
      obtain ⟨hkind, hs, -, hused, -⟩ := hk.target hi htj
      obtain ⟨-, hfits, -, hpins, hn⟩ := hc.entries j
      refine ⟨fun e => absurd e hused, fun e => ?_, fun e => ?_, hpins, hn⟩
      · obtain ⟨hd, ⟨-, ht'⟩ | ⟨hk', -⟩⟩ := hfits e
        · exact ⟨hd, Or.inl ⟨hkind, ht'⟩⟩
        · rw [hkind] at hk'
          cases hk'
      · change (T.entry j).state = .pending at e
        rw [e] at hs
        rcases hs with hs | hs <;> cases hs
    · rw [if_neg htj]
      exact hc.entries j

/-- The record taken joins its target's alias list, and no other list or target changes. -/
theorem aliases (ht : HeadTaken T i rest d k tg T') (hc : Core T) (hi : (T.entry i).state = .free)
    (hk : Takable T k tg) : AliasLaw T' := by
  have hnotin : ∀ j, i ∉ (T.entry j).aliases := fun j hm => (hc.of_mem hm).2.1 hi
  refine ⟨fun j a => ?_, fun j => ?_⟩
  · have hmem : a ∈ (T'.entry j).aliases ↔ a ∈ (T.entry j).aliases ∨ (a = i ∧ tg = some j) := by
      by_cases hj : j = i
      · subst hj
        rw [ht.self]
        exact ⟨Or.inl, fun e => e.elim id fun e => absurd rfl (hk.target hi e.2).2.2.2.2⟩
      · rw [ht.other j hj]
        by_cases htj : tg = some j <;> simp [htj]
    have htgt : (T'.entry a).target = some j ↔ (T.entry a).target = some j ∨ (a = i ∧ tg = some j) := by
      by_cases ha : a = i
      · subst ha
        obtain ⟨-, -, htarget, -⟩ := hc.free hi
        rw [ht.self, htarget]
        simp
      · rw [ht.other a ha]
        simp [ha]
    rw [hmem, htgt, hc.aliases.1]
  · by_cases hj : j = i
    · subst hj
      rw [ht.self]
      exact hc.aliases.2 j
    · rw [ht.other j hj]
      by_cases htj : tg = some j
      · obtain ⟨-, -, hlength, -⟩ := hk.target hi htj
        rw [if_pos htj]
        refine ⟨List.nodup_append.mpr ⟨(hc.aliases.2 j).1, List.nodup_singleton i, fun a ha b hb => ?_⟩, ?_⟩
        · rw [List.mem_singleton.mp hb]
          rintro rfl
          exact hnotin j ha
        · rw [List.length_append, List.length_singleton]
          exact hlength
      · rw [if_neg htj]
        exact hc.aliases.2 j

theorem core (ht : HeadTaken T i rest d k tg T') (hc : Core T) (hi : (T.entry i).state = .free)
    (hreasons : (T.entry i).reasons = ⟨false, false, false, false⟩) (hk : Takable T k tg) : Core T' where
  entries := ht.entries hc hi hreasons hk
  aliases := ht.aliases hc hi hk
  pins := (pinLaw_iff T').mpr fun j => by
    rw [restCount_of_holds ht.hold, ← hc.pins_eq]
    by_cases hj : j = i
    · subst hj
      obtain ⟨-, -, -, -, hpins, -⟩ := hc.free hi
      rw [ht.self, hpins]
      exact ⟨rfl, Nat.zero_le _⟩
    · rw [ht.other j hj]
      exact ⟨rfl, hc.pins_le j⟩

/-- The record taken counts in its domain. -/
theorem counts (ht : HeadTaken T i rest d k tg T') (h : CountLaw T) (hi : (T.entry i).state = .free) :
    CountLaw T' := (countLaw_iff T').mpr fun d' => by
  have hupd := indexCount_update (T := T) (T' := T') d' i fun j hj => by
    unfold countsIn
    rw [ht.other j hj]
  have hbefore : countsIn T d' i = false := by simp [countsIn, hi]
  have hafter : countsIn T' d' i = decide (d = d') := by simp [countsIn, ht.self]
  rw [hbefore, hafter, Bool.toNat_false, Nat.add_zero] at hupd
  rw [ht.domain, hupd, ← (countLaw_iff T).mp h d']
  by_cases hd : d' = d
  · subst hd
    simp
  · rw [if_neg hd, decide_eq_false (Ne.symm hd)]
    rfl

end HeadTaken

theorem takeHead (h : Recs T0 X T) {rest : List Index} (d : DomainId) {k : RecKind} {tg : Option Index}
    (hlist : T.freeList = i :: rest) (hk : Takable T k tg) :
    Recs (T.takeHead i rest d k tg) X (T.takeHead i rest d k tg) := by
  obtain ⟨h0, hi, hreasons, -⟩ := (h.rest.listed i).mp (hlist ▸ List.mem_cons_self)
  obtain ⟨-, -, -, -, -, -, hdead⟩ := h.core.free hi
  have ht : HeadTaken T i rest d k tg (T.takeHead i rest d k tg) := .of_takeHead h0 hi hk
  generalize T.takeHead i rest d k tg = T' at ht
  obtain ⟨hqueued, hdated, hnodup, hsorted⟩ := h.rest.expiry
  obtain ⟨hnot, hrest⟩ := List.nodup_cons.mp (hlist ▸ h.rest.nodup)
  have hunheld : ∀ p t y, T.hold p t = .held y → ∀ j, j = y.index ∨ j = y.resolved → j ≠ i := by
    rintro p t y hy j hj rfl
    rcases (h.rest.held p t y hy).2 j hj with hs | hs | hs <;> rw [hi] at hs <;> cases hs
  refine ⟨ht.core h.core hi hreasons hk, ht.freeList ▸ hrest, fun j => ?_, ht.counts h.rest.counts hi,
    ⟨fun e j => ?_, fun j hj => ?_, ht.queue ▸ hnodup, ht.queue ▸ hsorted⟩, fun j p hj => ?_, fun p t y hy => ?_,
    fun j hj => ?_, fun _ _ => rfl⟩
  · have hl := h.rest.listed j
    rw [hlist, List.mem_cons] at hl
    rw [ht.freeList]
    by_cases hj : j = i
    · subst hj
      rw [ht.self]
      exact iff_of_false hnot fun e => (nomatch e.2.1)
    · rw [ht.other j hj, ← hl]
      simp [hj]
  · rw [ht.queue, hqueued]
    by_cases hj : j = i
    · subst hj
      rw [ht.self, hdead]
    · rw [ht.other j hj]
  · by_cases hji : j = i
    · subst hji
      rw [ht.self] at hj
      exact absurd rfl hj
    · rw [ht.other j hji] at hj ⊢
      exact hdated j hj
  · by_cases hji : j = i
    · subst hji
      rw [ht.self] at hj
      cases hj
    · rw [ht.other j hji] at hj
      obtain ⟨t, y, hy⟩ := h.rest.writers j p hj
      exact ⟨t, y, by rw [ht.hold]; exact hy⟩
  · rw [ht.hold] at hy
    obtain ⟨hg, hs⟩ := h.rest.held p t y hy
    have hy' := hunheld p t y hy
    refine ⟨?_, fun j hj => ?_⟩
    · rw [ht.other _ (hy' _ (Or.inl rfl))]
      exact hg
    · rw [ht.other _ (hy' _ hj)]
      exact hs j hj
  · by_cases hji : j = i
    · subst hji
      rw [ht.self] at hj
      cases hj
    · rw [ht.other j hji] at hj ⊢
      refine (h.rest.draining j hj).imp_right (Or.imp_right fun ha => ?_)
      dsimp only
      split_ifs
      · exact List.append_ne_nil_of_left_ne_nil ha _
      · exact ha

/-! ## A notice is fetched (R114) -/

/-- The reasons of a record that owed some are cleared; a parked index joins the free list (R17). -/
theorem clearRecord (h : Recs T0 X T) (hi : (T.entry i).reasons ≠ ⟨false, false, false, false⟩) :
    Recs (clearSubject T (.record i)) X (clearSubject T (.record i)) := by
  have h0 : i ≠ 0 := by
    rintro rfl
    exact hi rfl
  have hent := fun j => clearSubject_record_entry T i j h0
  have hrest := clearSubject_record T i
  generalize clearSubject T (.record i) = T' at hent hrest
  have hfield : ∀ {α : Type} (f : StatusEntry → α),
      (∀ (e : StatusEntry), f { e with reasons := .empty, noticeGen := none } = f e) →
      ∀ j, f (T'.entry j) = f (T.entry j) := by
    intro α f hf j
    rw [hent]
    split_ifs
    · exact hf _
    · rfl
  have hstate := hfield StatusEntry.state fun _ => rfl
  have hhold : ∀ p t, T'.hold p t = T.hold p t := fun p t => by rw [hrest]; rfl
  have hqueue : T'.expiryQueue = T.expiryQueue := by rw [hrest]
  have hlist : T'.freeList = if (T.entry i).state = .free then T.freeList ++ [i] else T.freeList := by rw [hrest]
  have hnot : i ∉ T.freeList := fun hm => hi ((h.rest.listed i).mp hm).2.2.1
  refine ⟨h.core.of_same (fun j => ?_) (hfield _ fun _ => rfl) (hfield _ fun _ => rfl) (hfield _ fun _ => rfl) hhold,
    ?_, fun j => ?_, (countLaw_iff T').mpr fun d => ?_, ⟨fun d j => ?_, fun j hj => ?_, hqueue ▸ h.rest.expiry.2.2.1,
      hqueue ▸ h.rest.expiry.2.2.2⟩, fun j p hj => ?_, Rest.heldLaw_of h.rest.held (fun p t y hy => by rw [← hhold]; exact hy)
      hstate (hfield _ fun _ => rfl), fun j hj => ?_, fun _ _ => rfl⟩
  · rw [hent]
    split_ifs
    · obtain ⟨hf, hu, hp, hpins, -⟩ := h.core.entries j
      exact ⟨hf, hu, hp, hpins, rfl⟩
    · exact h.core.entries j
  · rw [hlist]
    split_ifs
    · exact List.nodup_append.mpr ⟨h.rest.nodup, List.nodup_singleton i, fun a ha b hb => by
        rw [List.mem_singleton.mp hb]
        rintro rfl
        exact hnot ha⟩
    · exact h.rest.nodup
  · rw [hlist]
    have hl := h.rest.listed j
    by_cases hj : j = i
    · subst hj
      rw [hent, if_pos rfl]
      split_ifs with hs
      · exact iff_of_true (List.mem_append_right _ (List.mem_singleton.mpr rfl)) ⟨h0, hs, rfl, List.not_mem_nil⟩
      · exact iff_of_false hnot fun e => hs e.2.1
    · rw [hent, if_neg hj]
      split_ifs
      · rw [List.mem_append, List.mem_singleton, hl]
        simp [hj]
      · exact hl
  · have hd : T'.domain d = T.domain d := by rw [hrest]; rfl
    rw [hd, (countLaw_iff T).mp h.rest.counts d]
    exact (indexCount_congr d fun j => by unfold countsIn; rw [hstate, hfield StatusEntry.domain fun _ => rfl]).symm
  · rw [hqueue, hfield StatusEntry.deadline fun _ => rfl]
    exact h.rest.expiry.1 d j
  · rw [hfield StatusEntry.deadline fun _ => rfl] at hj
    rw [hstate]
    exact h.rest.expiry.2.1 j hj
  · rw [hfield StatusEntry.writer fun _ => rfl] at hj
    obtain ⟨t, y, hy⟩ := h.rest.writers j p hj
    exact ⟨t, y, by rw [hhold]; exact hy⟩
  · rw [hfield StatusEntry.pins fun _ => rfl, hfield StatusEntry.aliases fun _ => rfl]
    exact h.rest.draining j (hstate j ▸ hj)

theorem fetch (h : Recs T0 X T) (x : Subject) (rest : List Subject) (hx : owes T x = true) :
    Recs (clearSubject { T with notices := rest } x) X (clearSubject { T with notices := rest } x) := by
  have hnotices : Recs T0 X { T with notices := rest } := h.of_rst rfl rfl (fun _ => rfl) rfl fun _ _ _ => Iff.rfl
  have hsame : ∀ T' : Tables, T'.rst = T.rst → T'.freeList = T.freeList → T'.domains = T.domains →
      T'.expiryQueue = T.expiryQueue → T'.holds = T.holds → Recs T' X T' := fun T' h1 h2 h3 h4 h5 =>
    (h.of_rst h1 h2 (fun d => by unfold domain; rw [h3]) h4 fun p t y => by unfold hold; rw [h5]).rebase
  cases x with
  | record i =>
    refine hnotices.clearRecord fun hr => ?_
    change (T.entry i).reasons = _ at hr
    simp only [owes, hr] at hx
    cases hx
  | port p => exact hsame _ rfl rfl rfl rfl rfl
  | domain d => exact hsame _ rfl rfl rfl rfl rfl
  | bank b => exact hsame _ rfl rfl rfl rfl rfl

/-! ## A domain is swept (R127, R128) -/

theorem sweepRecord (h : Recs T0 X T) (d : DomainId) (i : Index) : Recs T0 X (State.sweepRecord T d i) := by
  unfold State.sweepRecord
  split_ifs with hi
  · exact h.retire true true i hi.2
  · exact h

theorem sweepEnd (h : Recs T0 X T) (d : DomainId) : Recs T0 X (State.sweepEnd T d) :=
  (h.setDomain d { T.domain d with state := .closed, quota := 0 } rfl).raiseClosed d

end Recs

end Sys2Proof.Machine.State
end

section
/-! SUPPORT. The laws of the records in the claims that empty the table: the beginning of a TABLE_RESET, the visits of
its walk, and the start-up walk (R22, R119, R181, R185, R186). -/

namespace Sys2Proof.Machine.State

open Tables

theorem restCount_of_unheld {T : Tables} (h : Unheld T) (i : Index) : restCount T i = 0 :=
  restCount_eq_zero fun p t y hy => by
    have := h p t
    rw [hy] at this
    cases this

namespace Recs

variable {T0 T T' : Tables} {X : Index → Prop} {i : Index}

/-! ## The beginning of a TABLE_RESET (R185) -/

theorem unheld_beginClearing (T : Tables) : Unheld (State.beginClearing T) := fun p t => by
  rw [beginClearing_rest]
  exact allBroken_not_held T p t

/-- Every deadline is gone, and the expiry queue is empty. -/
theorem beginClearing (h : Recs T0 X T) : Recs T0 X (State.beginClearing T) := by
  have hbroken : Recs T0 X (allBroken T) := h.breakAll_none _ _
  have hent := beginClearing_entry T
  have hrest := beginClearing_rest T
  have hdomain := beginClearing_domain T
  generalize allBroken T = U at hbroken hent hrest hdomain
  generalize State.beginClearing T = T' at hent hrest hdomain
  have hhold : ∀ p t, T'.hold p t = U.hold p t := fun p t => by rw [hrest]; rfl
  have hlist : T'.freeList = U.freeList := by rw [hrest]
  have hqueue : T'.expiryQueue = [] := by rw [hrest]
  have hcount : ∀ d, (T'.domain d).count = (U.domain d).count := fun d => by
    rw [hdomain]
    split_ifs <;> rfl
  obtain ⟨hcore, hU⟩ := hbroken
  refine ⟨hcore.of_same (fun j => hent j ▸ (hcore.entries j).undated) (fun j => by rw [hent]) (fun j => by rw [hent])
    (fun j => by rw [hent]) hhold, hlist ▸ hU.nodup, fun j => by rw [hlist, hU.listed j, hent],
    (countLaw_iff T').mpr fun d => ?_, ⟨fun d j => ?_, fun j hj => ?_, ?_, ?_⟩, fun j p hj => ?_,
    Rest.heldLaw_of hU.held (fun p t y hy => by rw [← hhold]; exact hy) (fun j => by rw [hent]) fun j => by rw [hent],
    fun j hj => ?_, fun j hj => ?_⟩
  · rw [hcount, (countLaw_iff U).mp hU.counts d]
    exact (indexCount_congr d fun j => by unfold countsIn; rw [hent]).symm
  · rw [hqueue, hent]
    exact iff_of_false List.not_mem_nil fun e => (nomatch e)
  · rw [hent] at hj
    exact absurd rfl hj
  · rw [hqueue]
    exact List.nodup_nil
  · rw [hqueue]
    exact List.Pairwise.nil
  · rw [hent] at hj
    obtain ⟨t, y, hy⟩ := hU.writers j p hj
    exact ⟨t, y, by rw [hhold]; exact hy⟩
  · rw [hent] at hj ⊢
    exact hU.draining j hj
  · obtain ⟨-, -, -, -, -, -, hdead⟩ := hcore.free (hU.free_of_kept hj)
    rw [hent, ← hU.kept j hj, ← hdead]

/-! ## A visit of the clearing walk (R186) -/

/-- The records that a visit to record `i` frees, and the others. -/
structure Visited (T : Tables) (i : Index) (T' : Tables) : Prop extends Cleared T i T' where
  freed : ∀ j ∈ i :: (T.entry i).aliases, ∃ g, T'.entry j = .freeAt g

theorem visited_clearEntry (hc : Core T) (hi : i ≠ 0) : Visited T i (State.clearEntry T i) where
  toCleared := cleared_clearEntry hc.entries hc.aliases hi
  freed j hj := by
    rcases List.mem_cons.mp hj with rfl | ha
    · exact ⟨_, clearEntry_self T hi⟩
    · have hs : (T.entry i).state ≠ .free := fun hf => by
        obtain ⟨-, -, -, haliases, -⟩ := hc.free hf
        rw [haliases] at ha
        exact absurd ha List.not_mem_nil
      exact ⟨_, (clearEntry_alias T hi hs ha (hc.of_mem ha).2.2.2).1⟩

/-- The number of items that satisfy a test, those of `l` and the others. -/
theorem indexCount_split {f f' : Index → Bool} {l : List Index} (hl : l.Nodup) (hin : ∀ j ∈ l, f' j = false)
    (hout : ∀ j, j ∉ l → f' j = f j) : indexCount f = indexCount f' + (l.filter f).length := by
  have hsplit : ∀ j, (f j && !decide (j ∈ l)) = f' j := fun j => by
    by_cases hj : j ∈ l
    · simp [hj, hin j hj]
    · simp [hj, hout j hj]
  have hperm : ((List.finRange 4096).filter fun j => f j && decide (j ∈ l)).Perm (l.filter f) := by
    refine (List.perm_ext_iff_of_nodup ((List.nodup_finRange _).filter _) (hl.filter _)).mpr fun j => ?_
    simp [List.mem_filter, and_comm]
  unfold indexCount
  rw [← hperm.length_eq, ← funext hsplit]
  have hcount := List.length_eq_length_filter_add (l := (List.finRange 4096).filter f) fun j => !decide (j ∈ l)
  simp only [List.filter_filter, Bool.not_not] at hcount
  rw [hcount]
  simp only [Bool.and_comm]

theorem nodup_visited (hc : Core T) (i : Index) : (i :: (T.entry i).aliases).Nodup :=
  List.nodup_cons.mpr ⟨fun hm => (hc.of_mem hm).2.2.2 rfl, (hc.aliases.2 i).1⟩

namespace Visited

variable (hv : Visited T i T')

include hv

theorem entries (hc : Core T) : EntryLaw T' := fun j => by
  by_cases hj : j ∈ i :: (T.entry i).aliases
  · obtain ⟨g, hg⟩ := hv.freed j hj
    rw [hg]
    exact EntryFits.freeAt g
  · rw [hv.entry j hj]
    split_ifs
    · exact (hc.entries j).erased i
    · exact hc.entries j

theorem aliases (hc : Core T) : AliasLaw T' := by
  refine ⟨fun j a => ?_, fun j => ?_⟩
  · have hgone : ∀ j ∈ i :: (T.entry i).aliases, ∀ a, (T.entry a).target = some j → a ∈ i :: (T.entry i).aliases := by
      intro j hj a ha
      have hmem := (hc.aliases.1 j a).mpr ha
      rcases List.mem_cons.mp hj with rfl | hj
      · exact List.mem_cons_of_mem _ hmem
      · rw [(hc.of_mem hj).2.2.1] at hmem
        exact absurd hmem List.not_mem_nil
    by_cases ha : a ∈ i :: (T.entry i).aliases
    · obtain ⟨g, hg⟩ := hv.freed a ha
      rw [hg]
      refine iff_of_false (fun hm => ?_) fun e => (nomatch e)
      by_cases hj : j ∈ i :: (T.entry i).aliases
      · obtain ⟨g', hg'⟩ := hv.freed j hj
        rw [hg'] at hm
        exact absurd hm List.not_mem_nil
      · rw [hv.entry j hj] at hm
        dsimp only at hm
        rcases List.mem_cons.mp ha with rfl | ha
        · by_cases ht : (T.entry a).target = some j
          · rw [if_pos ht] at hm
            exact (((hc.aliases.2 j).1.mem_erase_iff).mp hm).1 rfl
          · rw [if_neg ht] at hm
            exact ht ((hc.aliases.1 j a).mp hm)
        · have hm' : a ∈ (T.entry j).aliases := by
            split_ifs at hm
            · exact List.mem_of_mem_erase hm
            · exact hm
          have hji := ((hc.aliases.1 j a).mp hm').symm.trans ((hc.aliases.1 i a).mp ha)
          exact hj (List.mem_cons.mpr (Or.inl (Option.some.inj hji)))
    · rw [hv.entry a ha]
      dsimp only
      by_cases hj : j ∈ i :: (T.entry i).aliases
      · obtain ⟨g, hg⟩ := hv.freed j hj
        rw [hg]
        exact iff_of_false List.not_mem_nil fun e => ha (hgone j hj a e)
      · refine Iff.trans ?_ (hc.aliases.1 j a)
        rw [hv.entry j hj]
        dsimp only
        split_ifs
        · exact List.mem_erase_of_ne fun e => ha (List.mem_cons.mpr (Or.inl e))
        · rfl
  · by_cases hj : j ∈ i :: (T.entry i).aliases
    · obtain ⟨g, hg⟩ := hv.freed j hj
      rw [hg]
      exact ⟨List.nodup_nil, Nat.zero_le _⟩
    · rw [hv.entry j hj]
      dsimp only
      split_ifs
      · exact ⟨(hc.aliases.2 j).1.erase i, List.erase_sublist.length_le.trans (hc.aliases.2 j).2⟩
      · exact hc.aliases.2 j

theorem hold (p : PortId) (t : Token) : T'.hold p t = T.hold p t := by rw [hv.rest]; rfl

theorem core (hc : Core T) (hn : Unheld T) : Core T' where
  entries := hv.entries hc
  aliases := hv.aliases hc
  pins := (pinLaw_iff T').mpr fun j => by
    rw [restCount_of_holds hv.hold, restCount_of_unheld hn]
    have hpins : (T'.entry j).pins = 0 := by
      by_cases hj : j ∈ i :: (T.entry i).aliases
      · obtain ⟨g, hg⟩ := hv.freed j hj
        rw [hg]
        rfl
      · rw [hv.entry j hj]
        exact (hc.pins_eq j).trans (restCount_of_unheld hn j)
    exact ⟨hpins, hpins.le.trans (Nat.zero_le _)⟩

theorem counts (hc : Core T) (h : CountLaw T) : CountLaw T' := (countLaw_iff T').mpr fun d => by
  have hsplit := indexCount_split (f := countsIn T d) (f' := countsIn T' d) (nodup_visited hc i)
    (fun j hj => by
      obtain ⟨g, hg⟩ := hv.freed j hj
      simp [countsIn, hg, StatusEntry.freeAt])
    fun j hj => by
      unfold countsIn
      rw [hv.entry j hj]
  have hfilter : ((i :: (T.entry i).aliases).filter (countsIn T d)).length =
      ((i :: (T.entry i).aliases).filter fun x => decide ((T.entry x).domain = some d)).length := by
    refine congrArg List.length (List.filter_congr fun x _ => ?_)
    unfold countsIn
    by_cases hx : (T.entry x).state = .free
    · simp [hx, (hc.free hx).1]
    · simp [hx]
  rw [hv.domain]
  show (T.domain d).count - _ = _
  rw [(countLaw_iff T).mp h d, hsplit, hfilter, Nat.add_sub_cancel]

theorem listed (hc : Core T) (h : FreeListLaw T) (hi : i ≠ 0) : FreeListLaw T' := by
  obtain ⟨hn, hl⟩ := h
  have hgone : ∀ j ∈ i :: (T.entry i).aliases, j ≠ 0 := fun j hj => by
    rcases List.mem_cons.mp hj with rfl | hj
    · exact hi
    · exact Core.ne_zero (hc.of_mem hj).2.1
  have hdisjoint : ∀ a ∈ T.freeList, ∀ b ∈ (T.entry i).aliases, a ≠ b := by
    rintro a ha b hb rfl
    exact (hc.of_mem hb).2.1 ((hl a).mp ha).2.1
  rw [FreeListLaw, hv.freeList]
  refine ⟨List.nodup_append.mpr ⟨(List.nodup_append.mpr ⟨hn, (hc.aliases.2 i).1, hdisjoint⟩).filter _,
    List.nodup_singleton i, fun a ha b hb => ?_⟩, fun j => ?_⟩
  · rw [List.mem_singleton.mp hb]
    simpa using (List.mem_filter.mp ha).2
  · have hmem : j ∈ ((T.freeList ++ (T.entry i).aliases).filter fun x => x != i) ++ [i] ↔
        j ∈ i :: (T.entry i).aliases ∨ j ∈ T.freeList := by
      by_cases hji : j = i <;> simp [hji, or_comm]
    rw [hmem]
    by_cases hj : j ∈ i :: (T.entry i).aliases
    · obtain ⟨g, hg⟩ := hv.freed j hj
      rw [hg]
      exact iff_of_true (Or.inl hj) ⟨hgone j hj, rfl, rfl⟩
    · rw [hv.entry j hj, hl, or_iff_right hj]

theorem expiry (h : ExpiryLaw T) : ExpiryLaw T' := by
  obtain ⟨hqueued, hdated, hnodup, hsorted⟩ := h
  have hsub := List.filter_sublist (p := fun x : Epoch × Index => decide (x.2 ∉ i :: (T.entry i).aliases))
    (l := T.expiryQueue)
  refine ⟨fun d j => ?_, fun j hj => ?_, ?_, ?_⟩
  · rw [hv.expiryQueue, List.mem_filter, hqueued]
    by_cases hj : j ∈ i :: (T.entry i).aliases
    · obtain ⟨g, hg⟩ := hv.freed j hj
      rw [hg]
      exact iff_of_false (fun e => of_decide_eq_true e.2 hj) fun e => (nomatch e)
    · rw [hv.entry j hj]
      exact and_iff_left (decide_eq_true hj)
  · by_cases hm : j ∈ i :: (T.entry i).aliases
    · obtain ⟨g, hg⟩ := hv.freed j hm
      rw [hg] at hj
      exact absurd rfl hj
    · rw [hv.entry j hm] at hj ⊢
      exact hdated j hj
  · rw [hv.expiryQueue]
    exact hnodup.sublist (hsub.map _)
  · rw [hv.expiryQueue]
    exact hsorted.sublist (hsub.map _)

/-- What was FREE is FREE still. -/
theorem keeps_free {j : Index} (hj : (T.entry j).state = .free) : (T'.entry j).state = .free := by
  by_cases hm : j ∈ i :: (T.entry i).aliases
  · obtain ⟨g, hg⟩ := hv.freed j hm
    rw [hg]
    rfl
  · rw [hv.entry j hm]
    exact hj

theorem frees : (T'.entry i).state = .free := by
  obtain ⟨g, hg⟩ := hv.freed i List.mem_cons_self
  rw [hg]
  rfl

end Visited

theorem freeListLaw (h : Recs T0 X T) : FreeListLaw T :=
  ⟨h.rest.nodup, fun j => (h.rest.listed j).trans (by simp)⟩

theorem clearEntry (h : Recs T0 X T) (hn : Unheld T) (hi : i ≠ 0) :
    Recs (State.clearEntry T i) (fun _ => True) (State.clearEntry T i) := by
  have hv := visited_clearEntry h.core hi
  generalize State.clearEntry T i = T' at hv
  obtain ⟨hnodup, hlisted⟩ := hv.listed h.core h.freeListLaw hi
  refine ⟨hv.core h.core hn, hnodup, fun j => (hlisted j).trans (by simp), hv.counts h.core h.rest.counts,
    hv.expiry h.rest.expiry, fun j p hj => ?_, fun p t y hy => ?_, fun j _ => Or.inl trivial, fun _ _ => rfl⟩
  · by_cases hm : j ∈ i :: (T.entry i).aliases
    · obtain ⟨g, hg⟩ := hv.freed j hm
      rw [hg] at hj
      cases hj
    · rw [hv.entry j hm] at hj
      obtain ⟨t, y, hy, -⟩ := h.rest.writers j p hj
      have := hn p t
      rw [hy] at this
      cases this
  · have := hn p t
    rw [← hv.hold, hy] at this
    cases this

/-! ## The start-up walk (R181) -/

/-- The walk finds every status entry as R21 has it. -/
theorem walked (h : Recs T0 X T) (hblank : ∀ i, T.entry i = .freeAt 0) : Recs T0 X (walkedTables T) := by
  have hent : ∀ j, (walkedTables T).entry j = T.entry j := fun j => by
    rw [hblank]
    exact entry_of_rst_nil rfl j
  have hlist := walkedTables_freeList T
  have hmem : ∀ j, j ∈ (walkedTables T).freeList ↔ j ≠ 0 := fun j => by
    rw [hlist]
    exact mem_freeListAtReset j
  refine ⟨h.core.of_entry_eq hent fun _ _ => rfl, hlist ▸ nodup_freeListAtReset, fun j => ?_,
    (countLaw_iff _).mpr fun d => ?_, ⟨fun d j => ?_, fun j hj => ?_, h.rest.expiry.2.2⟩, fun j p hj => ?_,
    Rest.heldLaw_of h.rest.held (fun p t y hy => hy) (fun j => by rw [hent]) fun j => by rw [hent], fun j hj => ?_,
    fun j hj => ?_⟩
  · rw [hmem, hent, hblank]
    exact ⟨fun e => ⟨e, rfl, rfl, List.not_mem_nil⟩, fun e => e.1⟩
  · refine ((countLaw_iff T).mp h.rest.counts d).trans ?_
    exact (indexCount_congr d fun j => by unfold countsIn; rw [hent]).symm
  · rw [hent]
    exact h.rest.expiry.1 d j
  · rw [hent] at hj ⊢
    exact h.rest.expiry.2.1 j hj
  · rw [hent] at hj
    exact h.rest.writers j p hj
  · rw [hent] at hj ⊢
    exact h.rest.draining j hj
  · rw [hent]
    exact h.rest.kept j hj

end Recs

end Sys2Proof.Machine.State
end

section
/-! SUPPORT. The laws of the records in every claim that leaves the part state and the clearing walk as they are. -/

namespace Sys2Proof.Machine.State

open Tables

/-- The laws of the records in a claim of a part in state `part` whose clearing walk stands at `walk`, with the laws of
links that they lean on; the records that were FREE in `T0` are as they were. -/
structure RecordsOk (T0 : Tables) (part : PartState) (walk : Option Index) (s : State) : Prop where
  linked : s.LinkOk
  partIs : s.partState = part
  walkIs : s.clearWalk = walk
  recs : Recs T0 (fun _ => part = .clearing) s.tables
  kinds : ∀ p g c t, s.reservations p g = some (c, some t) → c = .hold
  unheld : part = .clearing → Unheld s.tables

/-! ## The state's laws and these -/

theorem reservedByHold_iff (s : State) : s.ReservedByHold ↔
    ∀ p g c t, s.reservations p g = some (c, some t) → c = .hold := by
  constructor
  · intro h p g c t hr
    obtain ⟨x, hx, hk⟩ := Option.map_eq_some_iff.mp hr
    obtain ⟨rfl, ht⟩ := Prod.mk.inj hk
    exact h p g x hx (by rw [ht]; exact Option.some_ne_none t)
  · intro h p g x hx ht
    obtain ⟨t, ht⟩ := Option.ne_none_iff_exists'.mp ht
    exact h p g x.request.kind t (by simp [reservations, hx, ht])

theorem recs_of_laws {s : State} (h : s.RecordLaws) : Recs s.tables (fun _ => s.partState = .clearing) s.tables where
  core := ⟨h.entries, h.aliases, h.pins⟩
  rest :=
    { nodup := h.freeList.1
      listed := fun j => (h.freeList.2 j).trans (by simp)
      counts := h.counts
      expiry := h.expiry
      writers := h.writers
      held := h.held
      draining := fun j hj => (em (s.partState = .clearing)).imp_right fun hc => h.draining hc j hj
      kept := fun _ _ => rfl }

theorem recordsOk_of_laws {s : State} (h : s.RecordLaws) (hl : s.LinkOk) :
    RecordsOk s.tables s.partState s.clearWalk s :=
  ⟨hl, rfl, rfl, recs_of_laws h, (reservedByHold_iff s).mp h.reserved, h.clearing⟩

namespace RecordsOk

variable {T0 T1 : Tables} {part : PartState} {walk : Option Index} {s t : State}

/-- The laws of the records, where the records that the walk has visited are FREE and the part that is STARTING has its
entries as R21 has them. -/
theorem laws_of (h : RecordsOk T0 part walk s) (hcleared : s.ClearedLaw) (hstarting : s.StartingBlank) :
    s.RecordLaws where
  entries := h.recs.core.entries
  aliases := h.recs.core.aliases
  freeList := h.recs.freeListLaw
  counts := h.recs.rest.counts
  expiry := h.recs.rest.expiry
  pins := h.recs.core.pins
  writers := h.recs.rest.writers
  held := h.recs.rest.held
  draining hc i hi := (h.recs.rest.draining i hi).resolve_left fun e => hc (h.partIs.trans e)
  reserved := (reservedByHold_iff s).mpr h.kinds
  clearing hc := h.unheld (h.partIs.symm.trans hc)
  cleared := hcleared
  starting := hstarting

/-- A claim that leaves the part state and the walk keeps the laws. -/
theorem laws (h : RecordsOk s.tables s.partState s.clearWalk t) (hs : s.RecordLaws) : t.RecordLaws := by
  refine h.laws_of (fun c hc i hi => ?_) fun hp i => ?_
  · exact h.recs.rest.free_of_kept (hs.cleared c (h.walkIs.symm.trans hc) i hi)
  · have hblank := hs.starting (h.partIs.symm.trans hp) i
    rw [h.recs.rest.kept i (by rw [hblank]; rfl), hblank]

theorem laws_of_ready (h : RecordsOk T0 .ready none s) : s.RecordLaws :=
  h.laws_of (fun _ hc => nomatch h.walkIs.symm.trans hc) fun hp => nomatch h.partIs.symm.trans hp

/-! ## What leaves the tables, and what changes them alone -/

theorem of_same (h : RecordsOk T0 part walk s) (hT : t.tables = s.tables) (hp : t.partState = s.partState)
    (hw : t.clearWalk = s.clearWalk) (hk : ∀ p g, t.reservations p g = s.reservations p g) :
    RecordsOk T0 part walk t where
  linked := h.linked.of_same hT hk
  partIs := hp.trans h.partIs
  walkIs := hw.trans h.walkIs
  recs := hT ▸ h.recs
  kinds p g c x hr := h.kinds p g c x ((hk p g).symm.trans hr)
  unheld hc := hT ▸ h.unheld hc

theorem of_tables (h : RecordsOk T0 part walk s) (hl : t.LinkOk) (hslots : t.slots = s.slots)
    (hp : t.partState = s.partState) (hw : t.clearWalk = s.clearWalk)
    (hr : Recs T1 (fun _ => part = .clearing) t.tables) (hu : Unheld s.tables → Unheld t.tables) :
    RecordsOk T1 part walk t where
  linked := hl
  partIs := hp.trans h.partIs
  walkIs := hw.trans h.walkIs
  recs := hr
  kinds p g c x hx := h.kinds p g c x ((reservations_of_slots hslots p g).symm.trans hx)
  unheld hc := hu (h.unheld hc)

theorem choicePoint (h : RecordsOk T0 part walk s) (b : BankId) : RecordsOk T0 part walk (s.choicePoint b) :=
  h.of_same (choicePoint_tables s b) (by rw [choicePoint_rest]) (by rw [choicePoint_rest]) (reservations_choicePoint s b)

theorem grant (h : RecordsOk T0 part walk s) (b : BankId) : RecordsOk T0 part walk (s.grant b) :=
  h.of_same (by rw [grant_rest]) (by rw [grant_rest]) (by rw [grant_rest]) (reservations_grant s b)

theorem leaveHead (h : RecordsOk T0 part walk s) (b : BankId) : RecordsOk T0 part walk (s.leaveHead b) :=
  h.of_same (by rw [leaveHead_rest]) (by rw [leaveHead_rest]) (by rw [leaveHead_rest]) (reservations_leaveHead s b)

theorem answer (h : RecordsOk T0 part walk s) (st : AnswerStatus) (content : List Byte) :
    RecordsOk T0 part walk (s.answer st content) :=
  h.of_same (by rw [answer_rest]) (by rw [answer_rest]) (by rw [answer_rest]) fun p g => by rw [answer_rest]; rfl

theorem askSlot (h : RecordsOk T0 part walk s) (p : PortId) (g : Tag) (job : Job) :
    RecordsOk T0 part walk (s.askSlot p g job) :=
  h.of_same (by rw [askSlot_rest]) (by rw [askSlot_rest]) (by rw [askSlot_rest]) fun _ _ => reservations_askSlot ..

theorem askEngine (h : RecordsOk T0 part walk s) (job : Job) : RecordsOk T0 part walk (s.askEngine job) :=
  h.of_same (by rw [askEngine_rest]) (by rw [askEngine_rest]) (by rw [askEngine_rest]) fun p g => by
    rw [askEngine_rest]; rfl

theorem decay (h : RecordsOk T0 part walk s) (i : Index) (u : Option StoredBody) :
    RecordsOk T0 part walk (s.decay i u) :=
  h.of_same (by rw [decay_rest]) (by rw [decay_rest]) (by rw [decay_rest]) fun p g => by rw [decay_rest]; rfl

theorem writeCell (h : RecordsOk T0 part walk s) (i : Index) (c : Cell) : RecordsOk T0 part walk (s.writeCell i c) :=
  h.of_same (by rw [writeCell_rest]) (by rw [writeCell_rest]) (by rw [writeCell_rest]) fun p g => by
    rw [writeCell_rest]; rfl

theorem setBank (h : RecordsOk T0 part walk s) (b : BankId) (k : Bank) : RecordsOk T0 part walk (s.setBank b k) :=
  h.of_same rfl rfl rfl fun _ _ => rfl

/-- A claim over the tables alone. -/
theorem onTables (h : RecordsOk T0 part walk s) (f : Tables → Tables) (hl : Linked s.reservations (f s.tables))
    (hr : Recs T1 (fun _ => part = .clearing) (f s.tables)) (hu : Unheld s.tables → Unheld (f s.tables)) :
    RecordsOk T1 part walk (s.onTables f) :=
  h.of_tables (hl.of_reservations fun _ _ => rfl) rfl rfl rfl hr hu

/-- A claim over the tables that writes on records and breaks holds. -/
theorem onRecords (h : RecordsOk T0 part walk s) (f : Tables → Tables)
    (hf : ∀ {P : Tables → Prop}, BreakClosed P → P s.tables → P (f s.tables))
    (hr : Recs T1 (fun _ => part = .clearing) (f s.tables)) : RecordsOk T1 part walk (s.onTables f) :=
  h.onTables f (hf Linked.breakClosed h.linked) hr (hf Unheld.breakClosed)

/-! ## Checks -/

theorem completeIfLast (h : RecordsOk T0 part walk s) (p : PortId) : RecordsOk T0 part walk (s.completeIfLast p) := by
  refine h.of_tables (h.linked.completeIfLast p) (by rw [completeIfLast_rest]) (by rw [completeIfLast_rest])
    (by rw [completeIfLast_rest]) ?_ fun hu => ?_
  all_goals
    unfold State.completeIfLast
    split_ifs
  · exact h.recs.completeReset p
  · exact h.recs
  · exact hu.completeReset p
  · exact hu

/-- A reserved entry is not HELD. -/
theorem not_held (h : RecordsOk T0 part walk s) {p : PortId} {g : Tag} {c : CheckKind} {tok : Option Token}
    (hk : s.reservations p g = some (c, tok)) (t : Token) (ht : tok = some t) :
    isHeld (s.tables.hold p t) = false := by
  rw [(h.linked.reserved p t).mpr ⟨g, c, ht ▸ hk⟩]
  rfl

theorem screen (h : RecordsOk T0 part walk s) (p : PortId) (g : Tag) (r : CheckRequest)
    (hout : s.outstanding p g = false) : RecordsOk T0 part walk (s.screen p g r) := by
  have hl := h.linked.screen p g r hout
  unfold State.screen at hl ⊢
  split at hl
  · exact h.onTables _ (hl.of_reservations fun _ _ => rfl) (h.recs.placeFrame p _) id
  · have htok : ∀ t, (s.newSlot p r).token = some t → r.kind = .hold ∧ s.tables.hold p t = .empty := by
      intro t ht
      change reservedToken s.tables p r.kind = some t at ht
      unfold reservedToken at ht
      split at ht
      · cases ht
      · exact ⟨‹_›, by simpa using List.find?_some ht⟩
    refine ⟨hl, ?_, ?_, ?_, fun p' g' c t hr => ?_, fun hc => ?_⟩
    · rw [askSlot_rest]
      exact h.partIs
    · rw [askSlot_rest]
      exact h.walkIs
    · rw [askSlot_rest]
      exact h.recs.reserve p _ fun t ht => by rw [(htok t ht).2]; rfl
    · rw [reservations_askSlot, reservations_setSlot] at hr
      unfold Linked.withSlot at hr
      split_ifs at hr with hpg
      · obtain ⟨rfl, ht⟩ := Prod.mk.inj (Option.some.inj hr)
        exact (htok t ht).1
      · exact h.kinds p' g' c t hr
    · rw [askSlot_rest]
      exact (h.unheld hc).reserve p _

theorem takeRelease (h : RecordsOk T0 part walk s) (p : PortId) (g : Tag) (n : BitVec 4)
    (hout : s.outstanding p g = false) : RecordsOk T0 part walk (s.takeRelease p g n) := by
  have hl := h.linked.takeRelease p g n hout
  refine h.of_tables hl rfl rfl rfl ?_ fun hu => ?_
  all_goals
    unfold State.takeRelease State.onTables
    dsimp only
    split
  · exact (h.recs.releaseEntry p _).placeFrame p _
  · exact h.recs.placeFrame p _
  · exact hu.releaseEntry p _
  · exact hu

theorem takeFrame (h : RecordsOk T0 part walk s) (p : PortId) (l : List Byte) :
    RecordsOk T0 part walk (s.takeFrame p l) := by
  rcases takeFrame_cases s p l with e | ⟨c, e⟩ | ⟨hout, ⟨r, e⟩ | e⟩ <;> rw [e]
  · exact h
  · refine h.onTables _ (Linked.claimClosed.fence p c h.linked) (h.recs.fence p c) fun hu => ?_
    unfold State.fence
    split <;> exact hu
  · exact h.screen p _ r hout
  · exact h.takeRelease p _ _ hout

/-- An allowed HOLD finds its records LIVE and with room for a pin, and the part not CLEARING (R31, R37). -/
theorem fillable_of_passes {p : PortId} {x : CheckSlot} (h : s.decisionReason p x = none)
    (hk : x.request.kind = .hold) : Recs.Fillable s.tables x ∧ s.partState ≠ .clearing := by
  simp only [decisionReason, earlyTests, statusTests, List.cons_append, List.nil_append, firstDeny_cons, firstDeny_nil,
    Option.or_eq_none_iff, failsWith_eq, ite_some_eq_none, Bool.not_eq_false] at h
  obtain ⟨⟨hclearing, -⟩, -, ⟨hstale, -⟩, -, hnamed, htarget, -, -, -, -, ⟨hpins, -⟩, -⟩ := h
  have hlive : ∀ e, stateReason e = none → e = .live := fun e he => by cases e <;> simp [stateReason] at he ⊢
  have hroom : ¬ (15 ≤ (s.tables.entry x.named.index).pins ∨ 15 ≤ (s.tables.entry (dataIndexOf x)).pins) := fun e => by
    rw [(pinPasses_eq_false_iff (j := dataIndexOf x) rfl).mpr ⟨hk, e⟩] at hpins
    cases hpins
  rw [not_or, Nat.not_le, Nat.not_le] at hroom
  refine ⟨⟨hlive _ hnamed, ?_, ?_, hroom.1, hroom.2⟩, of_decide_eq_true hclearing⟩
  · unfold targetReason at htarget
    unfold dataIndexOf
    split
    · exact hlive _ hnamed
    · next hkind =>
      rw [hkind] at htarget
      cases ht : x.target with
      | none =>
        rw [ht] at htarget
        cases htarget
      | some j =>
        rw [ht] at htarget
        exact hlive _ htarget
  · by_contra hg
    rw [(staleTest_eq_false_iff ..).mpr (Or.inr (Or.inr hg))] at hstale
    cases hstale

/-- The tables of a decision, before the damage claims of its reads. -/
theorem settled (h : RecordsOk T0 part walk s) {p : PortId} {g : Tag} {y : CheckSlot}
    (hk : s.reservations p g = some (y.request.kind, y.token)) :
    Recs T0 (fun _ => part = .clearing) (s.settled p g y) ∧ (part = .clearing → Unheld (s.settled p g y)) := by
  have hreturn : Recs T0 (fun _ => part = .clearing) (returnEntry s.tables p y) ∧
      (part = .clearing → Unheld (returnEntry s.tables p y)) :=
    ⟨h.recs.returnEntry p y (h.not_held hk), fun hc => (h.unheld hc).returnEntry p y⟩
  unfold State.settled
  split_ifs
  · exact hreturn
  · have hsettle : Recs T0 (fun _ => part = .clearing) (settleEntry s.tables p y (s.decisionReason p y)) ∧
        (part = .clearing → Unheld (settleEntry s.tables p y (s.decisionReason p y))) := by
      unfold settleEntry
      split
      · next t hpass ht =>
        obtain ⟨hfill, hpart⟩ := fillable_of_passes hpass (h.kinds p g _ t (hk.trans (by rw [ht])))
        exact ⟨h.recs.fillHold p t y (h.not_held hk t ht) hfill, fun hc => absurd (h.partIs.trans hc) hpart⟩
      · exact hreturn
    exact ⟨hsettle.1.placeFrame p _, hsettle.2⟩

theorem decideSlot (h : RecordsOk T0 part walk s) (p : PortId) (g : Tag) (x y : CheckSlot) (hx : s.slot p g = some x)
    (hy : SameCheck x y) : RecordsOk T0 part walk (s.decideSlot p g y) := by
  have hk : s.reservations p g = some (y.request.kind, y.token) := by
    simp [reservations, hx, hy.request, hy.token]
  obtain ⟨hrecs, hunheld⟩ := h.settled hk
  have hl : Linked _ (readDamage (s.settled p g y) y) := Linked.breakClosed.readDamage y (Linked.settled h.linked hk)
  rw [decideSlot_eq]
  refine completeIfLast (s := State.setSlot { s with tables := readDamage (s.settled p g y) y } p g none)
    ⟨hl.of_reservations fun p' g' => reservations_setSlot _ p p' g g' none, h.partIs, h.walkIs,
      hrecs.readDamage y, fun p' g' c t hr => ?_, fun hc => Unheld.breakClosed.readDamage y (hunheld hc)⟩ p
  rw [reservations_setSlot] at hr
  unfold Linked.withSlot at hr
  split_ifs at hr
  · cases hr
  · exact h.kinds p' g' c t hr

theorem slotTakes (h : RecordsOk T0 part walk s) (p : PortId) (g : Tag) (r : ReadResult) :
    RecordsOk T0 part walk (s.slotTakes p g r) := by
  rcases slotTakes_cases s p g r with e | ⟨x, hx, ⟨y, hy, e⟩ | ⟨y, i, gen, hy, e⟩⟩ <;> rw [e]
  · exact h
  · exact h.decideSlot p g x y hx hy
  · have hset : RecordsOk T0 part walk (s.setSlot p g (some y)) := h.of_same rfl rfl rfl fun p' g' => by
      rw [reservations_setSlot]
      unfold Linked.withSlot
      split_ifs with hpg
      · rw [hpg.1, hpg.2]
        simp [reservations, hx, hy.request, hy.token]
      · rfl
    exact hset.askSlot p g _

/-! ## The Management Engine -/

theorem engineClosed : EngineClosed (RecordsOk T0 part walk) where
  result _ h := h.of_same rfl rfl rfl fun _ _ => rfl
  extent _ h := h.of_same rfl rfl rfl fun _ _ => rfl
  answer st content h := h.answer st content
  damage i g h := h.onRecords _ (fun c hp => c.damageClaim i g hp) (h.recs.damageClaim i g)
  free i h hi := by
    refine h.onRecords _ (fun c hp => c.becomeFree none i hp) ?_
    obtain ⟨-, -, haliases, hpins, -⟩ := h.recs.core.entries i
    exact (h.recs.exempt fun j hj => Or.inl hj).becomeFree none (by rw [hi]; decide) (hpins (Or.inl hi)) (haliases hi)
      (h.recs.rest.undated (by rw [hi]; decide) (by rw [hi]; decide)) fun j e => (nomatch e)
  ask job h _ := h.askEngine job
  live i h hi := h.onRecords _ (fun c hp => c.modEntry i (fun e => { e with state := .live }) (fun _ => rfl) hp)
    (h.recs.changed i .live (by rw [hi]; decide) (by decide) (by decide) (fun e => (nomatch e)) (fun _ => Or.inl rfl)
      fun e => (nomatch e))
  deadline i d h hi := h.onRecords _ (fun c hp => c.enterQueue i d hp) (h.recs.enterQueue i d (Or.inl hi))

theorem issuerTakes (h : RecordsOk T0 part walk s) (i : Index) (g : Generation) (issuer : Issuer) (r : ReadResult) :
    RecordsOk T0 part walk (s.issuerTakes i g issuer r) := by
  cases issuer with
  | engine => exact engineClosed.steps.engineTakesRead i g r h
  | slot p t => exact h.slotTakes p t r

/-! ## Refreshes, expiry, the sweep and frames sent -/

theorem missedRefresh (h : RecordsOk T0 part walk s) (b : BankId) : RecordsOk T0 part walk (s.missedRefresh b) := by
  have hl := h.linked.missedRefresh b
  unfold State.missedRefresh at hl ⊢
  dsimp only at hl ⊢
  split_ifs at hl ⊢
  · exact h.setBank b _
  · rw [losePage_rest] at hl ⊢
    exact h.of_tables hl rfl rfl rfl (((h.recs.lossClaims _).orderFrames s.tables).raiseLoss b) fun hu =>
      Unheld.breakClosed.orderFrames s.tables (Unheld.breakClosed.lossClaims _ hu)

theorem expireDue (h : RecordsOk T0 part walk s) : RecordsOk T0 part walk s.expireDue := by
  unfold State.expireDue expireHead
  split
  · split
    · next i _ _ =>
      split
      · next hi =>
        exact h.onRecords _ (fun c hp => c.expire i hp)
          (h.recs.expire i (by rcases hi with hi | hi <;> rw [hi] <;> rfl))
      · exact h.onRecords _ (fun c hp => c.leaveQueue i hp) (h.recs.leaveQueue i)
    · exact h
  · exact h

theorem expiryPassSteps (n : Nat) (h : RecordsOk T0 part walk s) : RecordsOk T0 part walk (expiryPassSteps n s) := by
  induction n generalizing s with
  | zero => exact h
  | succ n ih => exact ih h.expireDue

theorem sendHead (h : RecordsOk T0 part walk s) (p : PortId) : RecordsOk T0 part walk (s.sendHead p) := by
  have hl := h.linked.sendHead p
  unfold State.sendHead at hl ⊢
  split
  · exact h
  · next f rest hq =>
    simp only [hq] at hl
    exact h.of_tables hl rfl rfl rfl (h.recs.sent p rest f) fun hu => hu.sent p rest f

theorem sweepVisit (h : RecordsOk T0 part walk s) : RecordsOk T0 part walk s.sweepVisit := by
  refine h.of_tables (LinkOk.claims s h.linked).sweepVisit (by rw [sweepVisit_rest]) (by rw [sweepVisit_rest])
    (by rw [sweepVisit_rest]) ?_ fun hu => ?_
  all_goals
    unfold State.sweepVisit
    split
  · exact h.recs
  · next w _ =>
    dsimp only
    split
    · exact (h.recs.sweepRecord w.domain w.cursor).sweepEnd w.domain
    · exact h.recs.sweepRecord w.domain w.cursor
  · exact hu
  · next w _ =>
    have hrecord : Unheld (sweepRecord s.tables w.domain w.cursor) := by
      unfold sweepRecord
      split_ifs
      · exact Unheld.breakClosed.retire true true _ hu
      · exact hu
    dsimp only
    split
    · exact hrecord
    · exact hrecord

end RecordsOk

end Sys2Proof.Machine.State
end

section
/-! SUPPORT. The laws of the records in every step (R13, R16, R18, R52, R53, R56, R99, R121). -/

namespace Sys2Proof.Machine.State

open Tables

variable {T0 T1 : Tables} {s t : State}

/-! ## Requests handed over to a part that is READY -/

namespace RecordsOk

variable {part : PartState} {walk : Option Index}

theorem setDomain (h : RecordsOk T0 part walk s) (d : DomainId) (e : DomainEntry)
    (he : e.count = (s.tables.domain d).count) : RecordsOk T0 part walk (s.onTables fun T => T.setDomain d e) :=
  h.onTables _ (Linked.claimClosed.setDomain d e h.linked) (h.recs.setDomain d e he) id

theorem closeClaim (h : RecordsOk T0 part walk s) (d : DomainId) : RecordsOk T0 part walk (s.closeClaim d) := by
  have hl := Linked.claimClosed.setDomain d { s.tables.domain d with state := .closing } h.linked
  have hdomain := h.recs.setDomain d { s.tables.domain d with state := .closing } rfl
  refine h.of_tables (LinkOk.of_tables rfl (Linked.claimClosed.breakAll .domainClosed none _ hl)) rfl rfl rfl
    (hdomain.breakAll_none _ _) fun hu => ?_
  exact Unheld.breakClosed.breakAll .domainClosed none _
    (T := s.tables.setDomain d { s.tables.domain d with state := .closing }) hu

theorem takeHead (h : RecordsOk T0 part walk s) {i : Index} {rest : List Index} (d : DomainId) {k : RecKind}
    {tg : Option Index} (hlist : s.tables.freeList = i :: rest) (hk : Recs.Takable s.tables k tg)
    (taken : Index × Generation) :
    RecordsOk (s.tables.takeHead i rest d k tg) part walk
      ((s.onTables fun T => T.takeHead i rest d k tg).setTaken taken) := by
  have htaken := h.onTables (fun T => T.takeHead i rest d k tg) (Linked.claimClosed.takeHead i rest d k tg h.linked)
    (h.recs.takeHead d hlist hk) fun hu p t => by
      rw [takeHead_rest]
      exact hu p t
  exact htaken.of_same rfl rfl rfl fun _ _ => rfl

/-- SUSPEND and RESUME (R87). -/
theorem setRecState (h : RecordsOk T0 part walk s) {i : Index} {x : RecState} (hx : x = .live ∨ x = .suspended)
    (hi : (s.tables.entry i).state = .live ∨ (s.tables.entry i).state = .suspended) :
    RecordsOk T0 part walk (s.setRecState i x) := by
  refine h.onRecords _ (fun c hp => c.modEntry i (fun e => { e with state := x }) (fun _ => rfl) hp)
    (h.recs.changed i x ?_ ?_ ?_ ?_ (fun _ => hx) ?_)
  · rcases hi with hi | hi <;> rw [hi] <;> decide
  all_goals rcases hx with rfl | rfl <;> exact fun e => (nomatch e)

theorem fetch (h : RecordsOk T0 part walk s) {x : Subject} {rest : List Subject} (hx : s.tables.notices = x :: rest)
    (howes : owes s.tables x = true) :
    RecordsOk (clearSubject { s.tables with notices := rest } x) part walk
      (s.onTables fun T => clearSubject { T with notices := rest } x) := by
  refine h.onTables _ (Linked.claimClosed.fetch x rest h.linked hx) (h.recs.fetch x rest howes) fun hu => ?_
  cases x with
  | record i =>
    intro p t
    rw [clearSubject_record]
    exact hu p t
  | _ => exact hu

/-- The beginning claim of a TABLE_RESET. -/
theorem laws_acceptTableReset (h : RecordsOk T0 .ready none s) (hl : s.acceptTableReset.LinkOk) :
    s.acceptTableReset.RecordLaws := by
  have hrecs : Recs T0 (fun _ => PartState.clearing = .clearing) s.acceptTableReset.tables :=
    h.recs.beginClearing.exempt fun _ _ => rfl
  have hok : RecordsOk T0 .clearing (some 1) s.acceptTableReset :=
    ⟨hl, rfl, rfl, hrecs, fun p g c t hr => h.kinds p g c t ((reservations_of_slots rfl p g).symm.trans hr),
      fun _ => Recs.unheld_beginClearing s.tables⟩
  refine hok.laws_of (fun c hc i hi => ?_) fun hp => nomatch hok.partIs.symm.trans hp
  have hc1 : c = 1 := (Option.some.inj (hok.walkIs.symm.trans hc)).symm
  have hi0 : i = 0 := by
    rw [hc1] at hi
    exact Fin.ext (Nat.lt_one_iff.mp hi)
  rw [hi0]
  rfl

/-- Every acceptance claim keeps the laws, of a part that is READY. -/
theorem accepted (h : RecordsOk T0 .ready none s) (hn : s.NoticeLaw) (ha : Accepted s t) : t.RecordLaws := by
  have hl := h.linked
  have c := Linked.claimClosed (k := s.reservations)
  have hrecs := h.recs
  cases ha with
  | answered => exact (h.answer _ _).laws_of_ready
  | configured p e =>
    have hset : RecordsOk T0 .ready none { s with tickPeriod := p, alertEnable := e } :=
      h.of_same rfl rfl rfl fun _ _ => rfl
    exact (hset.answer _ _).laws_of_ready
  | bound p b =>
    exact ((h.onTables _ (c.setPort p ⟨.active, some b⟩ hl) (hrecs.setPort p _) id).answer _ _).laws_of_ready
  | unbound p =>
    exact ((h.onTables _ (c.setPort p ⟨.unbound, none⟩ hl) (hrecs.setPort p _) id).answer _ _).laws_of_ready
  | portReset p =>
    have hport : RecordsOk T0 .ready none (s.onTables fun T => T.setPort p { T.port p with state := .resetting }) :=
      h.onTables _ (c.setPort p _ hl) (hrecs.setPort p _) id
    exact ((hport.completeIfLast p).answer _ _).laws_of_ready
  | opened d q =>
    exact ((h.setDomain d { s.tables.domain d with state := .opened, quota := q } rfl).answer _ _).laws_of_ready
  | quotaSet d q => exact ((h.setDomain d { s.tables.domain d with quota := q } rfl).answer _ _).laws_of_ready
  | closed d => exact (h.closeClaim d |>.answer _ _).laws_of_ready
  | dataTaken d i rest body hfree =>
    exact ((h.takeHead d hfree (Or.inl ⟨rfl, rfl⟩) _).askEngine _).laws_of_ready
  | aliasTaken d i t rest hfree hkind hu hlist =>
    have hk : Recs.Takable s.tables .aliasKind (some t) :=
      Or.inr ⟨rfl, t, rfl, hkind, of_decide_eq_true hu, hlist⟩
    exact ((h.takeHead d hfree hk _).askEngine _).laws_of_ready
  | deadline i x hu =>
    have hset := h.onRecords (fun T => T.applyDeadline i x) (fun c hp => c.applyDeadline i x hp)
      (hrecs.applyDeadline x (of_decide_eq_true hu))
    exact (hset.answer _ _).laws_of_ready
  | asked job => exact (h.askEngine job).laws_of_ready
  | changed i x hx hu => exact ((h.setRecState hx (of_decide_eq_true hu)).answer _ _).laws_of_ready
  | revoked i casc brk st content hi =>
    have hretired := h.onRecords (fun T => T.retire casc brk i) (fun c hp => c.retire casc brk i hp)
      (hrecs.retire casc brk i hi)
    exact (hretired.answer _ _).laws_of_ready
  | fetched x rest content hx =>
    exact ((h.fetch hx ((hn.2 x).mp (hx ▸ List.mem_cons_self))).answer _ _).laws_of_ready
  | tableReset e he hr => exact h.laws_acceptTableReset (hl.accepted (.tableReset e he hr))

end RecordsOk

theorem recordLaws_managementFrame (h : s.AllLaws) (l : List Byte) : (s.managementFrame l).RecordLaws := by
  obtain ⟨hrecords, hn, hlink, hpart, hengine⟩ := h
  have hok := recordsOk_of_laws hrecords ((linkLaw_iff s).mp hlink)
  have hsame : ∀ t : State, t.tables = s.tables → t.partState = s.partState → t.clearWalk = s.clearWalk →
      t.slots = s.slots → t.RecordLaws := fun t h1 h2 h3 h4 =>
    (hok.of_same h1 h2 h3 (reservations_of_slots h4)).laws hrecords
  rcases managementFrame_cases s l with ⟨out, flag, e⟩ | ⟨out, _, _, e⟩ | ⟨_, out, a, e⟩ | ⟨hl, out, b, r, e⟩ <;> rw [e]
  · exact hsame _ rfl rfl rfl rfl
  · exact hsame _ rfl rfl rfl rfl
  · exact hsame _ rfl rfl rfl rfl
  · obtain ⟨-, hstart, hidle⟩ := hl
    have hclear : s.partState ≠ .clearing := fun hc => nomatch hidle.symm.trans (hengine.2 hc).1
    have hready : s.partState = .ready := by
      cases hp : s.partState with
      | ready => rfl
      | starting => exact absurd hp hstart
      | clearing => exact absurd hp hclear
    have hwalk : s.clearWalk = none := by
      by_contra hw
      exact hclear (hpart.2.1.mpr (Option.isSome_iff_ne_none.mpr hw))
    rw [hready, hwalk] at hok
    refine RecordsOk.accepted (T0 := s.tables) ?_ ?_ (accepted_handOver r)
    · exact hok.of_same rfl rfl rfl fun _ _ => rfl
    · exact hn

/-! ## An AMEND that passes (R65, R86) -/

theorem RecordsOk.amendWritten {part : PartState} {walk : Option Index} (h : RecordsOk T0 part walk s) {i : Index}
    {g : Generation} {c : AmendChanges} {force : Bool} {r : ReadResult}
    (hpass : s.amendJobRefusal i g c force r = none) : RecordsOk T0 part walk (s.amendWritten i c r) := by
  have hi : (s.tables.entry i).state = .live ∨ (s.tables.entry i).state = .suspended := by
    unfold amendJobRefusal at hpass
    split_ifs at hpass with _ hu
    exact of_decide_eq_true ((Bool.not_eq_false _).mp hu)
  have hset := (h.onRecords (fun T => amendTables T i c (amendedBody c r.body))
    (fun k hp => k.amendTables i c _ hp) (h.recs.amendTables c _ hi)).writeCell i
      (.stored (amendedBody c r.body).sealed)
  exact hset.of_same rfl rfl rfl fun _ _ => rfl

/-! ## The walks and RESET_N (R21, R181, R186) -/

theorem recordLaws_endStartUp (h : s.AllLaws) : s.endStartUp.RecordLaws := by
  obtain ⟨hrecords, -, hlink, ⟨hstart, hclear, -⟩, -⟩ := h
  have hok := recordsOk_of_laws hrecords ((linkLaw_iff s).mp hlink)
  have hl := (LinkOk.claims s hok.linked).endStartUp
  unfold endStartUp at hl ⊢
  split_ifs at hl ⊢ with hw
  · have hpart : s.partState = .starting := hstart.mpr (Or.inl hw)
    have hwalk : s.clearWalk = none := by
      by_contra hne
      have := hclear.mpr (Option.isSome_iff_ne_none.mpr hne)
      rw [hpart] at this
      cases this
    have hwalked := (hok.recs.walked (hrecords.starting hpart)).exempt (X' := fun _ => PartState.ready = .clearing)
      fun _ hc => nomatch hpart.symm.trans hc
    exact RecordsOk.laws_of_ready ⟨hl, rfl, hwalk, hwalked, hok.kinds, fun hc => nomatch hc⟩
  · exact hrecords

theorem recordLaws_clearingWalkVisit (h : s.AllLaws) : s.clearingWalkVisit.RecordLaws := by
  obtain ⟨hrecords, -, hlink, ⟨-, hclear, -, hcursor⟩, -⟩ := h
  have hok := recordsOk_of_laws hrecords ((linkLaw_iff s).mp hlink)
  have hl := (LinkOk.claims s hok.linked).clearingWalkVisit
  unfold clearingWalkVisit at hl ⊢
  cases hw : s.clearWalk with
  | none => exact hrecords
  | some i =>
    have hi := hcursor i hw
    have hunheld : Unheld s.tables := hrecords.clearing (hclear.mpr (by rw [hw]; rfl))
    have hpart : s.partState = .clearing := hclear.mpr (by rw [hw]; rfl)
    have hv := Recs.visited_clearEntry hok.recs.core hi
    have hcleared := hok.recs.clearEntry hunheld hi
    have hfree : ∀ j, j < i ∨ j = i → ((clearEntry s.tables i).entry j).state = .free := by
      rintro j (hj | rfl)
      · exact hv.keeps_free (hrecords.cleared i hw j hj)
      · exact hv.frees
    simp only [hw] at hl ⊢
    split_ifs at hl ⊢ with hlast
    · have hall : ∀ j, ((clearEntry s.tables i).entry j).state = .free := fun j => by
        refine hfree j (lt_or_eq_of_le ?_)
        rw [hlast]
        exact Nat.le_of_lt_succ j.isLt
      have hready : Recs (clearEntry s.tables i) (fun _ => PartState.ready = .clearing) (clearEntry s.tables i) :=
        ⟨hcleared.core, hcleared.rest.settled fun j _ hs => nomatch (hall j).symm.trans hs⟩
      rw [answer_rest] at hl ⊢
      exact RecordsOk.laws_of_ready ⟨hl, rfl, rfl, hready, hok.kinds, fun hc => nomatch hc⟩
    · have hkept : RecordsOk (clearEntry s.tables i) .clearing (some (i + 1))
          { s.onTables fun T => clearEntry T i with clearWalk := some (i + 1) } :=
        ⟨hl, hpart, rfl, hcleared.exempt fun _ _ => rfl, hok.kinds, fun _ p t => by
          refine (congrArg isHeld ?_).trans (hunheld p t)
          exact hv.hold p t⟩
      refine hkept.laws_of (fun c hc j hj => ?_) fun hp => nomatch hpart.symm.trans hp
      cases hc
      have hnext : (i + 1).val = i.val + 1 := Fin.val_add_one_of_lt (n := 4095) (lt_of_le_of_ne (Fin.le_last i) hlast)
      refine hfree j (lt_or_eq_of_le ?_)
      rw [Fin.lt_def, hnext] at hj
      exact Nat.le_of_lt_succ hj

theorem recordLaws_heldInReset (n : Nat) (q : List Instr) : (heldInReset n q).RecordLaws := by
  have hok := recordsOk_of_laws recordLaws_reset ((linkLaw_iff _).mp linkLaw_reset)
  have hsame : RecordsOk State.reset.tables State.reset.partState State.reset.clearWalk (heldInReset n q) :=
    hok.of_same rfl rfl rfl fun _ _ => rfl
  exact hsame.laws recordLaws_reset

/-! ## Every claim -/

theorem recordLaws_claims (s : State) (h : s.AllLaws) : Claims RecordLaws s := by
  have hrecords := h.1
  have hok : RecordsOk s.tables s.partState s.clearWalk s := recordsOk_of_laws h.1 ((linkLaw_iff s).mp h.2.2.1)
  have hengine := RecordsOk.engineClosed (T0 := s.tables) (part := s.partState) (walk := s.clearWalk)
  have kept : ∀ {t : State}, RecordsOk s.tables s.partState s.clearWalk t → t.RecordLaws := fun ht => ht.laws hrecords
  exact
    { assertReset := recordLaws_heldInReset _ _
      releaseReset := by
        unfold releaseReset
        split
        · exact kept (hok.of_same rfl rfl rfl fun _ _ => rfl)
        · exact hrecords
      endStartUp := recordLaws_endStartUp h
      receive := fun p l => kept (receive_keeps (P := RecordsOk s.tables s.partState s.clearWalk) p
        (fun _ _ h => h.of_same rfl rfl rfl fun _ _ => rfl) (fun _ l h => h.takeFrame p l) s l hok)
      startTransmission := fun p => by
        unfold startTransmission
        split
        · exact kept (hok.sendHead p)
        · exact hrecords
      endTransmission := fun p => by
        unfold endTransmission
        split
        · exact hrecords
        · exact kept (RecordsOk.sendHead (s := s.setTransmitter p .idle) (hok.of_same rfl rfl rfl fun _ _ => rfl) p)
      managementFrame := recordLaws_managementFrame h
      startService := fun b => by
        unfold startService
        dsimp only
        split
        · exact kept (hok.choicePoint b)
        · exact hrecords
      completeRead := fun b u => by
        unfold completeRead
        dsimp only
        split
        · exact kept ((((hok.decay _ u).leaveHead b).issuerTakes _ _ _ _).choicePoint b)
        · exact hrecords
      completeWrite := fun b => by
        unfold completeWrite
        dsimp only
        split
        · exact kept ((hengine.steps.engineTakesWrite _ _ ((hok.writeCell _ _).leaveHead b)).choicePoint b)
        · exact hrecords
      endReadHalf := fun b u => by
        unfold endReadHalf
        dsimp only
        split
        · next i g c force rest _ _ _ =>
          split
          · exact kept ((hengine.steps.amendRefused _ _ _ _ ((hok.decay _ u).leaveHead b)).choicePoint b)
          · next hpass =>
            exact kept (((hok.decay _ u).amendWritten hpass).setBank b _)
        · exact hrecords
      completeAmend := fun b => by
        unfold completeAmend
        dsimp only
        split
        · exact kept (((hok.leaveHead b).answer _ _).choicePoint b)
        · exact hrecords
      admitWaiting := fun b => by
        unfold admitWaiting
        dsimp only
        split
        · split
          · exact kept ((hok.grant b).choicePoint b)
          · exact kept (hok.grant b)
        · exact hrecords
      refreshTick := fun b => by
        unfold refreshTick takeRefreshTick
        dsimp only
        split_ifs
        · exact hrecords
        · exact kept ((hok.setBank b _).choicePoint b)
        · exact kept (hok.setBank b _)
        · exact kept (hok.missedRefresh b)
      startRefresh := fun b => by
        unfold startRefresh
        dsimp only
        split
        · exact kept (hok.choicePoint b)
        · exact hrecords
      finishRefresh := fun b => by
        unfold finishRefresh
        split
        · exact kept ((hok.setBank b _).choicePoint b)
        all_goals exact hrecords
      retentionLoss := fun b => by
        unfold retentionLoss
        dsimp only
        split
        · exact kept (hok.missedRefresh b)
        · exact hrecords
      epochTick := by
        unfold epochTick
        split
        · have hpass := RecordsOk.expiryPassSteps (s := s.advanceEpoch) s.advanceEpoch.tables.expiryQueue.length
            (hok.of_same rfl rfl rfl fun _ _ => rfl)
          exact kept (hpass.of_same rfl rfl rfl fun _ _ => rfl)
        · exact hrecords
      expireDue := kept hok.expireDue
      holdTimerExpiry := fun p t => kept (hok.onRecords _ (fun c hp => c.breakHold .timeout none (p, t) hp)
        (hok.recs.breakHold .timeout none (p, t) fun _ e => nomatch e))
      sweepVisit := kept hok.sweepVisit
      clearingWalkVisit := recordLaws_clearingWalkVisit h
      completeIfLast := fun p => kept (hok.completeIfLast p)
      testDraining := fun i => kept (hok.onRecords _ (fun c hp => c.testDraining none i hp)
        ((hok.recs.exempt fun _ hj => Or.inl hj).testDraining none fun _ e => nomatch e)) }

/-- The laws of the records are kept by every step. -/
theorem recordLaws_step (h : s.AllLaws) (hstep : step s = .next t) : t.RecordLaws :=
  step_keeps (Q := AllLaws) (R := RecordLaws) (fun _ _ ⟨hr, hrest⟩ => ⟨{ hr with }, hrest⟩) (fun _ h => h.1) recordLaws_claims h hstep

/-- Settles O57: the laws of the records, kept together. -/
theorem entryAndAliasLawKept : Obligations.EntryAndAliasLawKept := fun _ _ h hstep =>
  have hr := recordLaws_step h hstep
  ⟨hr.entries, hr.aliases, hr.draining, hr.cleared, hr.starting⟩

/-- Settles O58: the laws of the records, kept together. -/
theorem freeListAndCountsKept : Obligations.FreeListAndCountsKept := fun _ _ h hstep =>
  have hr := recordLaws_step h hstep
  ⟨hr.freeList, hr.counts⟩

/-- Settles O59: the laws of the records, kept together. -/
theorem pinsAndWritersKept : Obligations.PinsAndWritersKept := fun _ _ h hstep =>
  have hr := recordLaws_step h hstep
  ⟨hr.pins, hr.writers, hr.held, hr.reserved, hr.clearing⟩

/-- Settles O60: the laws of the records, kept together. -/
theorem expiryQueueKept : Obligations.ExpiryQueueKept := fun _ _ h hstep => (recordLaws_step h hstep).expiry

end Sys2Proof.Machine.State
end
